-- ==== Sys2Proof/Word.lean ====
section
/-! DEFINITION. The value widths of CCODEC (00_scope.md R8, R10; 30_encoding.md R70).  Every field of the
machine is an unsigned bit vector, bit 0 the least significant (R10). -/

namespace Sys2Proof

/-- One byte of a frame, a record or a StatusByte (R10, R11). -/
abbrev Byte := BitVec 8

/-- A 16-bit operand, CFG register, property id, property value or frequency (R24, R70). -/
abbrev Half := BitVec 16

/-- The 64-bit request word of the host port (R70). -/
abbrev ReqWord := BitVec 64

/-- A bus address: `P_ADDR_WIDTH` = 7 bits (R8, 90_conflicts.md C2). -/
abbrev Addr := BitVec 7

end Sys2Proof
end

