-- ==== Sys2Proof/Config.lean ====
section
/-! DEFINITION. The implementation parameters of 00_scope.md R8: one argument `Params` of the machine, and the value the
spec assigns to each.  The OPEN parameters (92_eei_decisions.md D35) and the Bus Transport's answers (20_memory.md R50)
are constants with no body. -/

namespace Sys2Proof

/-- What the Bus Transport answers to a `BusWrite` (R12, R50). -/
inductive WriteAnswer where
  | ok
  | busErr
  deriving DecidableEq, Repr, Inhabited

/-- What the Bus Transport answers to a `BusRead`: a byte sequence of ANY length, or an error (R50). -/
inductive ReadAnswer where
  | bytes (s : List Byte)
  | busErr
  deriving DecidableEq, Repr, Inhabited

/-- What the Bus Transport answers to a `BusScan`: any finite set of addresses (held as a list), or an error (R50). -/
inductive ScanAnswer where
  | found (s : List Addr)
  | busErr
  deriving DecidableEq, Repr, Inhabited

/-- The fourteen names of the wire opcode table `P_WIRE_OP` (30_encoding.md R80). -/
inductive WireOp where
  | powerUp
  | getRev
  | powerDown
  | setProperty
  | getProperty
  | getIntStatus
  | fmTuneFreq
  | fmSeekStart
  | fmTuneStatus
  | fmRsqStatus
  | amTuneFreq
  | amSeekStart
  | amTuneStatus
  | amRsqStatus
  deriving DecidableEq, Repr

namespace Config

/-- `P_WIRE_OP` (R8, R80, decision D5): the opcode byte of each command frame. -/
def wireOp : WireOp → Byte
  | .powerUp      => 0x01
  | .getRev       => 0x10
  | .powerDown    => 0x11
  | .setProperty  => 0x12
  | .getProperty  => 0x13
  | .getIntStatus => 0x14
  | .fmTuneFreq   => 0x20
  | .fmSeekStart  => 0x21
  | .fmTuneStatus => 0x22
  | .fmRsqStatus  => 0x23
  | .amTuneFreq   => 0x40
  | .amSeekStart  => 0x41
  | .amTuneStatus => 0x42
  | .amRsqStatus  => 0x43

/-- The first, preferred entry of `P_LEGAL_ADDRS` (R8, R57). -/
def addrFirst : Addr := 0x11

/-- The second entry of `P_LEGAL_ADDRS` (R8, R57). -/
def addrSecond : Addr := 0x63

/-- `P_LEGAL_ADDRS`, in priority order (R8, R57). -/
def legalAddrs : List Addr := [addrFirst, addrSecond]

/-- `P_VOLUME_MAX` (R8, R114). -/
def volumeMax : Half := 63

/-- `P_LEN_STATUS` (R8, decision D11). -/
def lenStatus : Nat := 1

/-- `P_LEN_TUNE_STATUS` (R8). -/
def lenTuneStatus : Nat := 7

/-- `P_LEN_RSQ_STATUS` (R8). -/
def lenRsqStatus : Nat := 7

/-- `P_LEN_REVISION` (R8). -/
def lenRevision : Nat := 14

/-- `P_GETPROP_LEN` (R8, decision D12, 90_conflicts.md C3); a machine with the alternative value 3 is one with another
`Params`. -/
def getPropLen : Nat := 4

/-- `P_PROP_REFCLK_FREQ` (R8, decision D6). -/
def propRefclkFreq : Half := 0x0201

/-- `P_PROP_REFCLK_PRESCALE` (R8, decision D6). -/
def propRefclkPrescale : Half := 0x0202

/-- `P_PROP_RX_VOLUME` (R8, decision D6). -/
def propRxVolume : Half := 0x4000

/-- `P_POWERUP_OPMODE` (R8, R86, decision D7). -/
def powerUpOpmode : Byte := 0x05

/-- `P_TUNE_PAD_FM`, in zero bytes (R8, decision D8). -/
def tunePadFm : Nat := 1

/-- `P_TUNE_PAD_AM`, in zero bytes (R8, decision D8). -/
def tunePadAm : Nat := 2

/-- `P_STC_BIT`, a bit index in a StatusByte (R8, R89, decision D14). -/
def stcBit : Nat := 0

/-- `P_SETTLE_UP_EXT` in ms: OPEN in the spec (R8, R24, D35), so a constant with no body (log entry 10). -/
opaque settleUpExt : Half

/-- `P_SETTLE_UP_XTAL` in ms: OPEN in the spec (R8, R24, D35), so a constant with no body (log entry 10). -/
opaque settleUpXtal : Half

/-- `P_SETTLE_DOWN` in ms: OPEN in the spec (R8, R24, D35), so a constant with no body (log entry 10). -/
opaque settleDown : Half

/-- The free answer of the n-th draw, where it is for a `BusWrite` (R50; log entry 1). -/
opaque freeWrite : Nat → WriteAnswer

/-- The free answer of the n-th draw, where it is for a `BusRead` (R50; log entry 1). -/
opaque freeRead : Nat → ReadAnswer

/-- The free answer of the n-th draw, where it is for a `BusScan` (R50; log entry 1). -/
opaque freeScan : Nat → ScanAnswer

end Config

/-- The implementation parameters, which the model takes as arguments (R8, R38; log entry 13).  They are no state: every
definition that reads one takes a `Params`, and where none is given it is `Params.spec`.  `P_ADDR_WIDTH` is the width of
`Addr`. -/
structure Params where
  /-- `P_WIRE_OP` (R80). -/
  wireOp : WireOp → Byte
  /-- `P_LEGAL_ADDRS`, in priority order (R57). -/
  legalAddrs : List Addr
  /-- `P_VOLUME_MAX` (R114). -/
  volumeMax : Half
  /-- `P_LEN_STATUS` (R90). -/
  lenStatus : Nat
  /-- `P_LEN_TUNE_STATUS` (R90). -/
  lenTuneStatus : Nat
  /-- `P_LEN_RSQ_STATUS` (R90). -/
  lenRsqStatus : Nat
  /-- `P_LEN_REVISION` (R90). -/
  lenRevision : Nat
  /-- `P_GETPROP_LEN`: 4, or 3 (R90, R153; 93_implementation_defined.md U5). -/
  getPropLen : Nat
  /-- `P_PROP_REFCLK_FREQ` (R100). -/
  propRefclkFreq : Half
  /-- `P_PROP_REFCLK_PRESCALE` (R100). -/
  propRefclkPrescale : Half
  /-- `P_PROP_RX_VOLUME` (R77, R114). -/
  propRxVolume : Half
  /-- `P_POWERUP_OPMODE` (R86). -/
  powerUpOpmode : Byte
  /-- `P_TUNE_PAD_FM`, in zero bytes (R81). -/
  tunePadFm : Nat
  /-- `P_TUNE_PAD_AM`, in zero bytes (R81). -/
  tunePadAm : Nat
  /-- `P_STC_BIT` (R89, R140). -/
  stcBit : Nat
  /-- `P_SETTLE_UP_EXT` (R24, D35). -/
  settleUpExt : Half
  /-- `P_SETTLE_UP_XTAL` (R24, D35). -/
  settleUpXtal : Half
  /-- `P_SETTLE_DOWN` (R24, D35). -/
  settleDown : Half

/-- The values the spec assigns (R8). -/
def Params.spec : Params where
  wireOp := Config.wireOp
  legalAddrs := Config.legalAddrs
  volumeMax := Config.volumeMax
  lenStatus := Config.lenStatus
  lenTuneStatus := Config.lenTuneStatus
  lenRsqStatus := Config.lenRsqStatus
  lenRevision := Config.lenRevision
  getPropLen := Config.getPropLen
  propRefclkFreq := Config.propRefclkFreq
  propRefclkPrescale := Config.propRefclkPrescale
  propRxVolume := Config.propRxVolume
  powerUpOpmode := Config.powerUpOpmode
  tunePadFm := Config.tunePadFm
  tunePadAm := Config.tunePadAm
  stcBit := Config.stcBit
  settleUpExt := Config.settleUpExt
  settleUpXtal := Config.settleUpXtal
  settleDown := Config.settleDown

end Sys2Proof
end

