-- ==== Sys2Proof/Syntax.lean ====
section
/-! DEFINITION. The instructions: one constructor per row of spec/opcode_table.json.  The fifteen REQ64 rows are the
requests of the host port (00_scope.md R7, 30_encoding.md R71, R72); the fourteen WIRE_CMD rows are the command frames
the sequencer sends (30_encoding.md R80, R81). -/

namespace Sys2Proof

/-- The tuner band (10_state.md R22): 0 = FM, 1 = AM. -/
inductive Mode where
  | fm
  | am
  deriving DecidableEq, Repr, Inhabited

/-- One constructor per row of spec/opcode_table.json, its arguments the row's operand fields. -/
inductive Instr where
  -- the command requests, 40_command_framer.md
  | powerUp (m : Mode)
  | powerDown
  | setProperty (id value : Half)
  | getProperty (id : Half)
  | tune (freq : Half)
  | seekStart (up wrap : Bool)
  | getStatus
  | getTuneStatus (cancel intack : Bool)
  | getRsqStatus (intack : Bool)
  | getRevision
  | getRevisionLong
  -- the control requests, 42_readiness_gate.md R173 and 43_control_requests.md
  | awaitReady
  | resolveAddress
  | configWrite (index : Byte) (value : Half)
  | noteChipReset
  -- the wire frames, 30_encoding.md R80 to R88
  | wirePowerUp (xoscen : Bool) (func : Mode) (opmode : Byte)
  | wireGetRev
  | wirePowerDown
  | wireSetProperty (id value : Half)
  | wireGetProperty (id : Half)
  | wireGetIntStatus
  | wireFmTuneFreq (freq : Half)
  | wireFmSeekStart (up wrap : Bool)
  | wireFmTuneStatus (cancel intack : Bool)
  | wireFmRsqStatus (intack : Bool)
  | wireAmTuneFreq (freq : Half)
  | wireAmSeekStart (up wrap : Bool)
  | wireAmTuneStatus (cancel intack : Bool)
  | wireAmRsqStatus (intack : Bool)
  deriving DecidableEq, Repr

/-- Is the instruction a request of the host port (a REQ64 row) rather than a wire frame (a WIRE_CMD row)? -/
def Instr.isRequest : Instr → Bool
  | .powerUp _ | .powerDown | .setProperty _ _ | .getProperty _ | .tune _ | .seekStart _ _ | .getStatus
  | .getTuneStatus _ _ | .getRsqStatus _ | .getRevision | .getRevisionLong
  | .awaitReady | .resolveAddress | .configWrite _ _ | .noteChipReset => true
  | .wirePowerUp _ _ _ | .wireGetRev | .wirePowerDown | .wireSetProperty _ _ | .wireGetProperty _
  | .wireGetIntStatus | .wireFmTuneFreq _ | .wireFmSeekStart _ _ | .wireFmTuneStatus _ _ | .wireFmRsqStatus _
  | .wireAmTuneFreq _ | .wireAmSeekStart _ _ | .wireAmTuneStatus _ _ | .wireAmRsqStatus _ => false

end Sys2Proof
end

