-- ==== Sys2Proof/Machine/Fields.lean ====
section
/-! DEFINITION. Bit fields and byte order (00_scope.md R10, R11; 20_memory.md R53): the helpers every encoding and every
parser reads and builds its fields with. -/

namespace Sys2Proof

/-- `hi8(v) = v[15:8]` (R10). -/
def hi8 (v : Half) : Byte := v.extractLsb' 8 8

/-- `lo8(v) = v[7:0]` (R10). -/
def lo8 (v : Half) : Byte := v.extractLsb' 0 8

/-- `{h, l}`: a big-endian pair of bytes read back as the 16-bit value (R53). -/
def be16 (h l : Byte) : Half := h ++ l

/-- `zeros(n)`: n bytes of 0x00 (R11). -/
def zeros (n : Nat) : List Byte := List.replicate n 0

/-- Byte i of a byte sequence, `s[i]` (R11); a sequence shorter than that is never read by a rule. -/
def byteAt (s : List Byte) (i : Nat) : Byte := s.getD i 0

/-- `u16(i) = {b[i], b[i+1]}` of a record (41_response_parser.md section 3). -/
def u16At (s : List Byte) (i : Nat) : Half := be16 (byteAt s i) (byteAt s (i + 1))

/-- The mode bit (R22): 0 = FM, 1 = AM. -/
def Mode.bit : Mode → Bool
  | .fm => false
  | .am => true

/-- The mode a mode bit names (R22, R75). -/
def Mode.ofBit : Bool → Mode
  | false => .fm
  | true => .am

/-- FUNC of the POWER_UP argument byte: 0x0 for FM, 0x1 for AM (R86). -/
def Mode.func : Mode → BitVec 4
  | .fm => 0x0
  | .am => 0x1

/-- `OP = w[63:60]` (R70). -/
def reqOp (w : ReqWord) : BitVec 4 := w.extractLsb' 60 4

/-- `SUB = w[59:56]` (R70). -/
def reqSub (w : ReqWord) : BitVec 4 := w.extractLsb' 56 4

/-- `RSV1 = w[55:48]` (R70). -/
def reqRsv1 (w : ReqWord) : Byte := w.extractLsb' 48 8

/-- `A = w[47:32]` (R70). -/
def reqA (w : ReqWord) : Half := w.extractLsb' 32 16

/-- `B = w[31:16]` (R70). -/
def reqB (w : ReqWord) : Half := w.extractLsb' 16 16

/-- `RSV0 = w[15:0]` (R70). -/
def reqRsv0 (w : ReqWord) : Half := w.extractLsb' 0 16

/-- The request word with the given OP, SUB, A and B, its reserved fields zero (R70). -/
def reqWord (op sub : BitVec 4) (a b : Half) : ReqWord := op ++ sub ++ 0#8 ++ a ++ b ++ 0#16

/-- SUB of SEEK_START: `{UP, WRAP, 0, 0}` (R72). -/
def seekSub (up wrap : Bool) : BitVec 4 := BitVec.ofBool up ++ BitVec.ofBool wrap ++ 0#2

/-- SUB of GET_TUNE_STATUS: `{0, 0, CANCEL, INTACK}` (R72). -/
def tuneStatusSub (cancel intack : Bool) : BitVec 4 := 0#2 ++ BitVec.ofBool cancel ++ BitVec.ofBool intack

/-- SUB of GET_RSQ_STATUS: `{0, 0, 0, INTACK}` (R72); of POWER_UP, with M in the same place. -/
def bit0Sub (b : Bool) : BitVec 4 := 0#3 ++ BitVec.ofBool b

/-- An argument byte that is a copy of SUB: `{0000, SUB[3:0]}` (R72, R87, R88). -/
def subArg (sub : BitVec 4) : Byte := 0#4 ++ sub

/-- `PU_ARG1 = {CTSIEN 0, GPO2OEN 0, PATCH 0, XOSCEN, FUNC}` (R86). -/
def powerUpArg1 (xoscen : Bool) (m : Mode) : Byte := 0#3 ++ BitVec.ofBool xoscen ++ m.func

end Sys2Proof
end

