-- ==== Sys2Proof/WellFormed.lean ====
section
/-! DEFINITION. Which instruction terms CCODEC can hold.  The operand types admit exactly the field values of
30_encoding.md R72 and R86 to R88, so one check is left: the second argument byte of the POWER_UP frame, which is
the parameter `P_POWERUP_OPMODE` (R86). -/

namespace Sys2Proof

/-- Well-formed instructions (R81, R86): the POWER_UP frame carries `P_POWERUP_OPMODE`; every other term is one. -/
def Instr.wellFormed (i : Instr) (p : Params := Params.spec) : Bool :=
  match i with
  | .wirePowerUp _ _ opmode => opmode == p.powerUpOpmode
  | .powerUp _ | .powerDown | .setProperty _ _ | .getProperty _ | .tune _ | .seekStart _ _ | .getStatus
  | .getTuneStatus _ _ | .getRsqStatus _ | .getRevision | .getRevisionLong
  | .awaitReady | .resolveAddress | .configWrite _ _ | .noteChipReset
  | .wireGetRev | .wirePowerDown | .wireSetProperty _ _ | .wireGetProperty _
  | .wireGetIntStatus | .wireFmTuneFreq _ | .wireFmSeekStart _ _ | .wireFmTuneStatus _ _ | .wireFmRsqStatus _
  | .wireAmTuneFreq _ | .wireAmSeekStart _ _ | .wireAmTuneStatus _ _ | .wireAmRsqStatus _ => true

end Sys2Proof
end

