-- ==== Sys2Proof/Decode.lean ====
section
/-! DEFINITION. The decoder (request words, 30_encoding.md R70 to R75; wire frames, R80 to R88), total on any word and on
any bytes, rejecting by name; after it the encoder, and the opcode table's match and mask rows (R74). -/

namespace Sys2Proof

/-! ## Request words -/

/-- Why a word or a byte sequence is no instruction. -/
inductive DecodeError where
  /-- OP = 0x0 (R73). -/
  | reservedOp
  /-- RSV1 ≠ 0 (R73). -/
  | reservedRsv1
  /-- RSV0 ≠ 0 (R73). -/
  | reservedRsv0
  /-- A SUB bit that R72 marks 0 is 1 (R73). -/
  | reservedSub
  /-- An A bit that R72 marks 0 is 1 (R73). -/
  | reservedA
  /-- A B bit that R72 marks 0 is 1 (R73). -/
  | reservedB
  /-- A frame of no bytes (R82: every frame is 1 to 6 bytes long). -/
  | emptyFrame
  /-- Byte 0 is none of the fourteen wire opcodes (R82). -/
  | unknownWireOp
  /-- The frame has not the length its byte 0 fixes (R82). -/
  | wrongFrameLength
  /-- A byte or bit that R81 and R86 to R88 fix at 0 is not 0 (R83), or FUNC is neither 0 nor 1 (R86). -/
  | reservedFrameBits
  deriving DecidableEq, Repr

/-- Go on only where a reserved field has its fixed value. -/
def require (ok : Bool) (e : DecodeError) (k : Except DecodeError Instr) : Except DecodeError Instr :=
  if ok then k else .error e

/-- A request from its four fields (R71, R72, R75), RSV1 and RSV0 being zero. -/
def decodeFields (op sub : BitVec 4) (a b : Half) : Except DecodeError Instr :=
  match op.toNat with
  | 0x1 =>
    require (sub.extractLsb' 1 3 == 0) .reservedSub <| require (a == 0) .reservedA <| require (b == 0) .reservedB <|
      .ok (.powerUp (Mode.ofBit (sub.getLsbD 0)))
  | 0x2 =>
    require (sub == 0) .reservedSub <| require (a == 0) .reservedA <| require (b == 0) .reservedB <| .ok .powerDown
  | 0x3 => require (sub == 0) .reservedSub <| .ok (.setProperty a b)
  | 0x4 => require (sub == 0) .reservedSub <| require (b == 0) .reservedB <| .ok (.getProperty a)
  | 0x5 => require (sub == 0) .reservedSub <| require (b == 0) .reservedB <| .ok (.tune a)
  | 0x6 =>
    require (sub.extractLsb' 0 2 == 0) .reservedSub <| require (a == 0) .reservedA <| require (b == 0) .reservedB <|
      .ok (.seekStart (sub.getLsbD 3) (sub.getLsbD 2))
  | 0x7 =>
    require (sub == 0) .reservedSub <| require (a == 0) .reservedA <| require (b == 0) .reservedB <| .ok .getStatus
  | 0x8 =>
    require (sub.extractLsb' 2 2 == 0) .reservedSub <| require (a == 0) .reservedA <| require (b == 0) .reservedB <|
      .ok (.getTuneStatus (sub.getLsbD 1) (sub.getLsbD 0))
  | 0x9 =>
    require (sub.extractLsb' 1 3 == 0) .reservedSub <| require (a == 0) .reservedA <| require (b == 0) .reservedB <|
      .ok (.getRsqStatus (sub.getLsbD 0))
  | 0xA =>
    require (sub == 0) .reservedSub <| require (a == 0) .reservedA <| require (b == 0) .reservedB <| .ok .getRevision
  | 0xB =>
    require (sub == 0) .reservedSub <| require (a == 0) .reservedA <| require (b == 0) .reservedB <|
      .ok .getRevisionLong
  | 0xC =>
    require (sub == 0) .reservedSub <| require (a == 0) .reservedA <| require (b == 0) .reservedB <| .ok .awaitReady
  | 0xD =>
    require (sub == 0) .reservedSub <| require (a == 0) .reservedA <| require (b == 0) .reservedB <|
      .ok .resolveAddress
  | 0xE => require (sub == 0) .reservedSub <| require (hi8 a == 0) .reservedA <| .ok (.configWrite (lo8 a) b)
  | 0xF =>
    require (sub == 0) .reservedSub <| require (a == 0) .reservedA <| require (b == 0) .reservedB <|
      .ok .noteChipReset
  | _ => .error .reservedOp

/-- The request decoder (R74): every word is one legal request or is rejected by name; each rejection is the
ILLEGAL_REQUEST of R73. -/
def decodeRequest (w : ReqWord) : Except DecodeError Instr :=
  require (reqRsv1 w == 0) .reservedRsv1 <| require (reqRsv0 w == 0) .reservedRsv0 <|
    decodeFields (reqOp w) (reqSub w) (reqA w) (reqB w)

/-! ## Wire frames -/

/-- The wire opcodes in the order of R80's table. -/
def WireOp.all : List WireOp :=
  [.powerUp, .getRev, .powerDown, .setProperty, .getProperty, .getIntStatus, .fmTuneFreq, .fmSeekStart,
   .fmTuneStatus, .fmRsqStatus, .amTuneFreq, .amSeekStart, .amTuneStatus, .amRsqStatus]

/-- Which row of `P_WIRE_OP` a byte 0 names (R80, R82). -/
def wireOpOf (b : Byte) (p : Params := Params.spec) : Option WireOp :=
  WireOp.all.find? fun o => p.wireOp o == b

/-- The frame length a byte 0 fixes (R82). -/
def WireOp.frameLength (op : WireOp) (p : Params := Params.spec) : Nat :=
  match op with
  | .powerUp => 3
  | .getRev => 1
  | .powerDown => 1
  | .setProperty => 6
  | .getProperty => 4
  | .getIntStatus => 1
  | .fmTuneFreq => 4 + p.tunePadFm
  | .fmSeekStart => 2
  | .fmTuneStatus => 2
  | .fmRsqStatus => 2
  | .amTuneFreq => 4 + p.tunePadAm
  | .amSeekStart => 6
  | .amTuneStatus => 2
  | .amRsqStatus => 2

/-- The argument bytes of a frame, after its byte 0 (R81, R86 to R88); their number is already right. -/
def decodeArgs (op : WireOp) (args : List Byte) (p : Params := Params.spec) : Except DecodeError Instr :=
  let a := byteAt args 0
  match op with
  | .powerUp =>
    require (a.extractLsb' 5 3 == 0 && a.extractLsb' 1 3 == 0) .reservedFrameBits <|
      .ok (.wirePowerUp (a.getLsbD 4) (Mode.ofBit (a.getLsbD 0)) (byteAt args 1))
  | .getRev => .ok .wireGetRev
  | .powerDown => .ok .wirePowerDown
  | .setProperty => require (a == 0) .reservedFrameBits <| .ok (.wireSetProperty (u16At args 1) (u16At args 3))
  | .getProperty => require (a == 0) .reservedFrameBits <| .ok (.wireGetProperty (u16At args 1))
  | .getIntStatus => .ok .wireGetIntStatus
  | .fmTuneFreq =>
    require (a == 0 && args.drop 3 == zeros p.tunePadFm) .reservedFrameBits <|
      .ok (.wireFmTuneFreq (u16At args 1))
  | .fmSeekStart =>
    require (a.extractLsb' 4 4 == 0 && a.extractLsb' 0 2 == 0) .reservedFrameBits <|
      .ok (.wireFmSeekStart (a.getLsbD 3) (a.getLsbD 2))
  | .fmTuneStatus =>
    require (a.extractLsb' 2 6 == 0) .reservedFrameBits <| .ok (.wireFmTuneStatus (a.getLsbD 1) (a.getLsbD 0))
  | .fmRsqStatus => require (a.extractLsb' 1 7 == 0) .reservedFrameBits <| .ok (.wireFmRsqStatus (a.getLsbD 0))
  | .amTuneFreq =>
    require (a == 0 && args.drop 3 == zeros p.tunePadAm) .reservedFrameBits <|
      .ok (.wireAmTuneFreq (u16At args 1))
  | .amSeekStart =>
    require (a.extractLsb' 4 4 == 0 && a.extractLsb' 0 2 == 0 && args.drop 1 == zeros 4) .reservedFrameBits <|
      .ok (.wireAmSeekStart (a.getLsbD 3) (a.getLsbD 2))
  | .amTuneStatus =>
    require (a.extractLsb' 2 6 == 0) .reservedFrameBits <| .ok (.wireAmTuneStatus (a.getLsbD 1) (a.getLsbD 0))
  | .amRsqStatus => require (a.extractLsb' 1 7 == 0) .reservedFrameBits <| .ok (.wireAmRsqStatus (a.getLsbD 0))

/-- The frame decoder: one complete frame, first byte first (R55, R82), or a rejection by name. -/
def decodeFrame (f : List Byte) (p : Params := Params.spec) : Except DecodeError Instr :=
  match f with
  | [] => .error .emptyFrame
  | b :: args =>
    match wireOpOf b p with
    | none => .error .unknownWireOp
    | some op => require (args.length + 1 == op.frameLength p) .wrongFrameLength <| decodeArgs op args p

/-! ## Encodings as one type -/

/-- What an instruction is encoded as: a word of the request port (R70) or a frame of the bus (R81). -/
inductive Encoded where
  | word (w : ReqWord)
  | frame (bytes : List Byte)
  deriving DecidableEq, Repr

/-- The decoder on either encoding. -/
def decode (e : Encoded) (p : Params := Params.spec) : Except DecodeError Instr :=
  match e with
  | .word w => decodeRequest w
  | .frame bytes => decodeFrame bytes p

/-- The encoder, row by row from spec/opcode_table.json (R71, R72 and R80, R81, R86 to R88). -/
def encode (i : Instr) (p : Params := Params.spec) : Encoded :=
  match i with
  | .powerUp m => .word (reqWord 0x1 (bit0Sub m.bit) 0 0)
  | .powerDown => .word (reqWord 0x2 0 0 0)
  | .setProperty id value => .word (reqWord 0x3 0 id value)
  | .getProperty id => .word (reqWord 0x4 0 id 0)
  | .tune freq => .word (reqWord 0x5 0 freq 0)
  | .seekStart up wrap => .word (reqWord 0x6 (seekSub up wrap) 0 0)
  | .getStatus => .word (reqWord 0x7 0 0 0)
  | .getTuneStatus cancel intack => .word (reqWord 0x8 (tuneStatusSub cancel intack) 0 0)
  | .getRsqStatus intack => .word (reqWord 0x9 (bit0Sub intack) 0 0)
  | .getRevision => .word (reqWord 0xA 0 0 0)
  | .getRevisionLong => .word (reqWord 0xB 0 0 0)
  | .awaitReady => .word (reqWord 0xC 0 0 0)
  | .resolveAddress => .word (reqWord 0xD 0 0 0)
  | .configWrite index value => .word (reqWord 0xE 0 (be16 0 index) value)
  | .noteChipReset => .word (reqWord 0xF 0 0 0)
  | .wirePowerUp xoscen func opmode => .frame [p.wireOp .powerUp, powerUpArg1 xoscen func, opmode]
  | .wireGetRev => .frame [p.wireOp .getRev]
  | .wirePowerDown => .frame [p.wireOp .powerDown]
  | .wireSetProperty id value =>
    .frame [p.wireOp .setProperty, 0x00, hi8 id, lo8 id, hi8 value, lo8 value]
  | .wireGetProperty id => .frame [p.wireOp .getProperty, 0x00, hi8 id, lo8 id]
  | .wireGetIntStatus => .frame [p.wireOp .getIntStatus]
  | .wireFmTuneFreq freq =>
    .frame ([p.wireOp .fmTuneFreq, 0x00, hi8 freq, lo8 freq] ++ zeros p.tunePadFm)
  | .wireFmSeekStart up wrap => .frame [p.wireOp .fmSeekStart, subArg (seekSub up wrap)]
  | .wireFmTuneStatus cancel intack => .frame [p.wireOp .fmTuneStatus, subArg (tuneStatusSub cancel intack)]
  | .wireFmRsqStatus intack => .frame [p.wireOp .fmRsqStatus, subArg (bit0Sub intack)]
  | .wireAmTuneFreq freq =>
    .frame ([p.wireOp .amTuneFreq, 0x00, hi8 freq, lo8 freq] ++ zeros p.tunePadAm)
  | .wireAmSeekStart up wrap => .frame ([p.wireOp .amSeekStart, subArg (seekSub up wrap)] ++ zeros 4)
  | .wireAmTuneStatus cancel intack => .frame [p.wireOp .amTuneStatus, subArg (tuneStatusSub cancel intack)]
  | .wireAmRsqStatus intack => .frame [p.wireOp .amRsqStatus, subArg (bit0Sub intack)]

/-- The request word of a request (R70), which no parameter enters; a wire frame has none, and no definition asks for
it. -/
def Instr.word (i : Instr) : ReqWord :=
  match encode i with
  | .word w => w
  | .frame _ => 0

/-- The frame bytes of a wire frame (R81); a request has none, and no definition asks for them. -/
def Instr.frameBytes (i : Instr) (p : Params := Params.spec) : List Byte :=
  match encode i p with
  | .word _ => []
  | .frame bytes => bytes

/-! ## The opcode table's rows -/

/-- One REQ64 row of spec/opcode_table.json: the word is that request exactly when `(w AND mask) = pattern` (R74). -/
structure RequestRow where
  mnemonic : String
  pattern : ReqWord
  mask : ReqWord
  deriving DecidableEq, Repr

/-- The fifteen REQ64 rows of spec/opcode_table.json, match and mask as the table has them. -/
def requestTable : List RequestRow :=
  [⟨"POWER_UP", 0x1000000000000000, 0xFEFFFFFFFFFFFFFF⟩,
   ⟨"POWER_DOWN", 0x2000000000000000, 0xFFFFFFFFFFFFFFFF⟩,
   ⟨"SET_PROPERTY", 0x3000000000000000, 0xFFFF00000000FFFF⟩,
   ⟨"GET_PROPERTY", 0x4000000000000000, 0xFFFF0000FFFFFFFF⟩,
   ⟨"TUNE", 0x5000000000000000, 0xFFFF0000FFFFFFFF⟩,
   ⟨"SEEK_START", 0x6000000000000000, 0xF3FFFFFFFFFFFFFF⟩,
   ⟨"GET_STATUS", 0x7000000000000000, 0xFFFFFFFFFFFFFFFF⟩,
   ⟨"GET_TUNE_STATUS", 0x8000000000000000, 0xFCFFFFFFFFFFFFFF⟩,
   ⟨"GET_RSQ_STATUS", 0x9000000000000000, 0xFEFFFFFFFFFFFFFF⟩,
   ⟨"GET_REVISION", 0xA000000000000000, 0xFFFFFFFFFFFFFFFF⟩,
   ⟨"GET_REVISION_LONG", 0xB000000000000000, 0xFFFFFFFFFFFFFFFF⟩,
   ⟨"AWAIT_READY", 0xC000000000000000, 0xFFFFFFFFFFFFFFFF⟩,
   ⟨"RESOLVE_ADDRESS", 0xD000000000000000, 0xFFFFFFFFFFFFFFFF⟩,
   ⟨"CONFIG_WRITE", 0xE000000000000000, 0xFFFFFF000000FFFF⟩,
   ⟨"NOTE_CHIP_RESET", 0xF000000000000000, 0xFFFFFFFFFFFFFFFF⟩]

/-- Does a word match a row (R74)? -/
def RequestRow.matches (r : RequestRow) (w : ReqWord) : Bool := w &&& r.mask == r.pattern

/-- The mnemonic of an instruction's row in spec/opcode_table.json. -/
def Instr.mnemonic : Instr → String
  | .powerUp _ => "POWER_UP"
  | .powerDown => "POWER_DOWN"
  | .setProperty _ _ => "SET_PROPERTY"
  | .getProperty _ => "GET_PROPERTY"
  | .tune _ => "TUNE"
  | .seekStart _ _ => "SEEK_START"
  | .getStatus => "GET_STATUS"
  | .getTuneStatus _ _ => "GET_TUNE_STATUS"
  | .getRsqStatus _ => "GET_RSQ_STATUS"
  | .getRevision => "GET_REVISION"
  | .getRevisionLong => "GET_REVISION_LONG"
  | .awaitReady => "AWAIT_READY"
  | .resolveAddress => "RESOLVE_ADDRESS"
  | .configWrite _ _ => "CONFIG_WRITE"
  | .noteChipReset => "NOTE_CHIP_RESET"
  | .wirePowerUp _ _ _ => "WIRE_POWER_UP"
  | .wireGetRev => "WIRE_GET_REV"
  | .wirePowerDown => "WIRE_POWER_DOWN"
  | .wireSetProperty _ _ => "WIRE_SET_PROPERTY"
  | .wireGetProperty _ => "WIRE_GET_PROPERTY"
  | .wireGetIntStatus => "WIRE_GET_INT_STATUS"
  | .wireFmTuneFreq _ => "WIRE_FM_TUNE_FREQ"
  | .wireFmSeekStart _ _ => "WIRE_FM_SEEK_START"
  | .wireFmTuneStatus _ _ => "WIRE_FM_TUNE_STATUS"
  | .wireFmRsqStatus _ => "WIRE_FM_RSQ_STATUS"
  | .wireAmTuneFreq _ => "WIRE_AM_TUNE_FREQ"
  | .wireAmSeekStart _ _ => "WIRE_AM_SEEK_START"
  | .wireAmTuneStatus _ _ => "WIRE_AM_TUNE_STATUS"
  | .wireAmRsqStatus _ => "WIRE_AM_RSQ_STATUS"

/-! ## Words as the opcode table numbers them -/

/-- Byte k of a table word: bits 8k+7 down to 8k, the first byte of a frame lowest. -/
def tableByte (w k : Nat) : Byte := BitVec.ofNat 8 (w / 2 ^ (8 * k))

/-- The frame laid out from a table word: as many bytes as its byte 0 fixes (R82), one byte where byte 0 fixes none. -/
def tableFrame (w : Nat) : List Byte :=
  let n := match wireOpOf (tableByte w 0) with
    | some op => op.frameLength
    | none => 1
  (List.range n).map (tableByte w)

/-- Is a table row of this many bits a request word (64 bits) rather than a frame (at most 48 bits, R92)? -/
def isRequestWidth (nbits : Nat) : Bool := 48 < nbits

/-- The instruction the decoder reads from an instruction whose bits are w, numbered as spec/opcode_table.json numbers
them (log entry 20). -/
def decodeTableWord (nbits w : Nat) : Option Instr :=
  let r := if isRequestWidth nbits then decodeRequest (BitVec.ofNat 64 w) else decodeFrame (tableFrame w)
  match r with
  | .ok i => some i
  | .error _ => none

end Sys2Proof
end

