-- ==== Sys2Proof/Machine/State.lean ====
section
/-! DEFINITION. The state of CCODEC (10_state.md R20 to R38, 20_memory.md R52), as plain data, the reasons a step can
stop, and the state after block reset (R36). -/

namespace Sys2Proof.Machine

/-! ## The values of the registers -/

/-- The thirteen configuration registers, 0x00 to 0x0C (R24). -/
inductive CfgReg where
  | maxAttempts
  | stcMaxAttempts
  | pollIntervalMs
  | bandLoFm
  | bandHiFm
  | bandLoAm
  | bandHiAm
  | oscSource
  | refclkHz
  | refclkPrescale
  | settleUpExtMs
  | settleUpXtalMs
  | settleDownMs
  deriving DecidableEq, Repr

/-- The configuration register file CFG: thirteen 16-bit unsigned registers (R24). -/
structure Cfg where
  maxAttempts : Half
  stcMaxAttempts : Half
  pollIntervalMs : Half
  bandLoFm : Half
  bandHiFm : Half
  bandLoAm : Half
  bandHiAm : Half
  oscSource : Half
  refclkHz : Half
  refclkPrescale : Half
  settleUpExtMs : Half
  settleUpXtalMs : Half
  settleDownMs : Half
  deriving DecidableEq, Repr

/-- The completion codes of RESULT_CODE (60_exceptions.md R210); the numbers are `ResultCode.byte`. -/
inductive ResultCode where
  | none
  | ok
  | chipError
  | timeout
  | busError
  | shortRead
  | longRead
  | invalidArgument
  | deviceNotFound
  | noAddress
  | noMode
  | illegalRequest
  deriving DecidableEq, Repr

/-- The record kinds of RESULT_KIND (R29); the numbers are `Kind.bits`. -/
inductive Kind where
  | none
  | status
  | property
  | tuneStatusFm
  | tuneStatusAm
  | rsqStatusFm
  | rsqStatusAm
  | revision
  deriving DecidableEq, Repr

/-- WKIND: the kind of the running wait (R33). -/
inductive WKind where
  | cts
  | stc
  deriving DecidableEq, Repr

/-- WSTATE: the state of the ready-wait FSM, W_IDLE, W_POLL or W_SLEEP (R33). -/
inductive WState where
  | idle
  | poll
  | sleep
  deriving DecidableEq, Repr

/-- The micro-operations of SEQ: those of 43_control_requests.md R196, and the programs of the three control requests
(R191, R192, R194), each of which is one of its own (log entry 6). -/
inductive MicroOp where
  /-- `PRE`, the pre-issue wait (R174). -/
  | pre
  /-- `INVMODE` (R196). -/
  | invMode
  /-- `WR(s)`: send one command frame (R55, R196). -/
  | wr (frame : List Byte)
  /-- `SETTLE(ms)` (R196). -/
  | settle (ms : Half)
  /-- `WAIT_CTS` (R171). -/
  | waitCts
  /-- `WAIT_STC` (R172). -/
  | waitStc
  /-- `RD(n, kind)` (R150). -/
  | rd (n : Nat) (kind : Kind)
  /-- `COMMIT(m)` (R196). -/
  | commit (m : Mode)
  /-- The program of RESOLVE_ADDRESS (R191). -/
  | resolve
  /-- `CFG[I] <- V`, the program of CONFIG_WRITE (R192). -/
  | cfgWrite (reg : CfgReg) (value : Half)
  /-- `CTS_SEEN <- 0; MODE_VALID <- 0`, the program of NOTE_CHIP_RESET (R194). -/
  | noteReset
  deriving DecidableEq, Repr

/-- One event of the bus event trace (20_memory.md R52). -/
inductive Event where
  | write (a : Addr) (s : List Byte) (r : WriteAnswer)
  | read (a : Addr) (n : Nat) (r : ReadAnswer)
  | scan (r : ScanAnswer)
  | delay (ms : Nat)
  deriving DecidableEq, Repr

/-- The Bus Transport as CCODEC meets it (20_memory.md R50; log entry 1): the answers it will give to the coming
primitives, one list for each primitive, oldest first; where a list is empty, the answer is a free value, drawn by
number.  This is the MODEL's own state, not a register of the spec. -/
structure Transport where
  writes : List WriteAnswer
  reads : List ReadAnswer
  scans : List ScanAnswer
  draws : Nat
  deriving DecidableEq, Repr

/-- The state of CCODEC.  The registers are those of R20 and no others; `trace` is R52's bus event trace; `port` and
`bus` are the model's own (the host's presented requests and the transport's answers, log entries 1 and 2). -/
structure State where
  /-- ADDR and ADDR_VALID (R21): `none` is ADDR_VALID = 0. -/
  addr : Option Addr
  /-- MODE and MODE_VALID (R22): `none` is MODE_VALID = 0. -/
  mode : Option Mode
  /-- CTS_SEEN (R23). -/
  ctsSeen : Bool
  /-- CFG (R24). -/
  cfg : Cfg
  /-- LAST_STATUS (R26). -/
  lastStatus : Byte
  /-- ERR_SEEN (R27). -/
  errSeen : Bool
  /-- RESULT_CODE (R28). -/
  resultCode : ResultCode
  /-- RESULT_KIND (R29). -/
  resultKind : Kind
  /-- RESULT_LEN (R30). -/
  resultLen : BitVec 5
  /-- RESULT_BYTES (R30). -/
  resultBytes : Vector Byte 14
  /-- BUSY (R31). -/
  busy : Bool
  /-- CUR_REQ (R31). -/
  curReq : ReqWord
  /-- SEQ (R32): the micro-operations the current request has still to run. -/
  seq : List MicroOp
  /-- WKIND (R33). -/
  wkind : WKind
  /-- WSTATE (R33). -/
  wstate : WState
  /-- ATTEMPTS (R33). -/
  attempts : Half
  /-- The bus event trace, oldest first (20_memory.md R52). -/
  trace : List Event
  /-- The requests the host presents, in order; the head is the one on the port now (R31; log entry 2). -/
  port : List ReqWord
  /-- The transport's coming answers (R50; log entry 1). -/
  bus : Transport
  deriving DecidableEq, Repr

/-! ## Why a step can stop -/

/-- The faults: what stops the machine. -/
inductive Fault where
  /-- Raised by `step` alone, where BUSY = 0 and no request is presented: CCODEC "is idle and stuck until the host
  presents a request. That is a final state, not a hang" (R197; 93_implementation_defined.md U15).  SAFE: the machine
  takes no step, and no statement is made about a next one. -/
  | idle
  deriving DecidableEq, Repr

/-- The refusals: an instruction without a meaning. -/
inductive Refusal where
  /-- Raised by `exec` alone, for an instruction this model gives no meaning: none is left.  SAFE. -/
  | notModelled (mnemonic : String)
  deriving DecidableEq, Repr

/-! ## Block reset -/

/-- CFG after block reset (R24, R36); the three settling delays are OPEN parameters (log entry 10). -/
def Cfg.reset (p : Params := Params.spec) : Cfg where
  maxAttempts := 50
  stcMaxAttempts := 50
  pollIntervalMs := 10
  bandLoFm := 6400
  bandHiFm := 10800
  bandLoAm := 520
  bandHiAm := 1710
  oscSource := 0
  refclkHz := 32768
  refclkPrescale := 1
  settleUpExtMs := p.settleUpExt
  settleUpXtalMs := p.settleUpXtal
  settleDownMs := p.settleDown

/-- No answers given beforehand: every answer is a free value. -/
def Transport.fresh : Transport where
  writes := []
  reads := []
  scans := []
  draws := 0

/-- The state right after block reset, for any parameters (R36, R240; R8).  `port` and `bus` are the model's own fields
(log entries 1, 2). -/
def State.resetWith (p : Params) : State where
  addr := none
  mode := none
  ctsSeen := false
  cfg := Cfg.reset p
  lastStatus := 0x00
  errSeen := false
  resultCode := .none
  resultKind := .none
  resultLen := 0
  resultBytes := Vector.replicate 14 0x00
  busy := false
  curReq := 0
  seq := []
  wkind := .cts
  wstate := .idle
  attempts := 0
  trace := []
  port := []
  bus := Transport.fresh

/-- The state right after block reset (R36, R240), with the parameters the spec assigns (R8). -/
def State.reset : State := State.resetWith Params.spec

/-- What a step, and the meaning of an instruction, answers. -/
abbrev Outcome := Host.Outcome State Fault Refusal

end Sys2Proof.Machine
end

