-- ==== Sys2Proof/Machine/Flags.lean ====
section
/-! DEFINITION. The status-flag decoder and the observation of a StatusByte (41_response_parser.md R140 to R142,
30_encoding.md R89), and the conditions the ready-wait FSM reads from one (42_readiness_gate.md R175). -/

namespace Sys2Proof.Machine

/-- `decode_status(s)` (R140): the named flags, and the whole byte kept as `raw`. -/
structure StatusFlags where
  cts : Bool
  err : Bool
  stc : Bool
  raw : Byte
  deriving DecidableEq, Repr

/-- CTS: bit 7 of a StatusByte (R89). -/
def statusCts (s : Byte) : Bool := s.getLsbD 7

/-- ERR: bit 6 of a StatusByte (R89). -/
def statusErr (s : Byte) : Bool := s.getLsbD 6

/-- STC: bit `P_STC_BIT` of a StatusByte (R89). -/
def statusStc (s : Byte) (p : Params := Params.spec) : Bool := s.getLsbD p.stcBit

/-- The status-flag decoder: every byte decodes (R140). -/
def decodeStatus (s : Byte) (p : Params := Params.spec) : StatusFlags where
  cts := statusCts s
  err := statusErr s
  stc := statusStc s p
  raw := s

/-- ERR counts only together with CTS (R142). -/
def errCounts (b : Byte) : Bool := statusCts b && statusErr b

/-- `observe(s)` (R141): LAST_STATUS and CTS_SEEN follow the byte; ERR_SEEN is only ever set. -/
def observe (b : Byte) (s : State) : State :=
  { s with lastStatus := b, ctsSeen := statusCts b, errSeen := s.errSeen || errCounts b }

/-- The condition that ends a wait with success: CTS for a CTS wait, CTS and STC for an STC wait (R175). -/
def waitDone (k : WKind) (b : Byte) (p : Params := Params.spec) : Bool :=
  match k with
  | .cts => statusCts b
  | .stc => statusCts b && statusStc b p

/-- The attempt limit of a wait: CFG[MAX_ATTEMPTS] or CFG[STC_MAX_ATTEMPTS] (R175). -/
def waitLimit : WKind → Cfg → Half
  | .cts, c => c.maxAttempts
  | .stc, c => c.stcMaxAttempts

end Sys2Proof.Machine
end

