-- ==== Sys2Proof/Machine/Ops.lean ====
section
/-! DEFINITION. The named operations over the machine: the bus primitives and their events (00_scope.md R12,
20_memory.md R50 to R56), `finish`, which is all the exception-taking CCODEC has (R12, 60_exceptions.md R211), the
acceptance of a request (10_state.md R31), and the micro-operations that make one bus event (R150, R191, R196).
There is no return from an exception (R216). -/

namespace Sys2Proof.Machine

/-! ## CFG -/

/-- `CFG[i]` (R12, R24). -/
def Cfg.get (c : Cfg) : CfgReg → Half
  | .maxAttempts => c.maxAttempts
  | .stcMaxAttempts => c.stcMaxAttempts
  | .pollIntervalMs => c.pollIntervalMs
  | .bandLoFm => c.bandLoFm
  | .bandHiFm => c.bandHiFm
  | .bandLoAm => c.bandLoAm
  | .bandHiAm => c.bandHiAm
  | .oscSource => c.oscSource
  | .refclkHz => c.refclkHz
  | .refclkPrescale => c.refclkPrescale
  | .settleUpExtMs => c.settleUpExtMs
  | .settleUpXtalMs => c.settleUpXtalMs
  | .settleDownMs => c.settleDownMs

/-- `CFG[i] <- v` (R192); the value reads back as written (R25). -/
def Cfg.set (c : Cfg) (r : CfgReg) (v : Half) : Cfg :=
  match r with
  | .maxAttempts => { c with maxAttempts := v }
  | .stcMaxAttempts => { c with stcMaxAttempts := v }
  | .pollIntervalMs => { c with pollIntervalMs := v }
  | .bandLoFm => { c with bandLoFm := v }
  | .bandHiFm => { c with bandHiFm := v }
  | .bandLoAm => { c with bandLoAm := v }
  | .bandHiAm => { c with bandHiAm := v }
  | .oscSource => { c with oscSource := v }
  | .refclkHz => { c with refclkHz := v }
  | .refclkPrescale => { c with refclkPrescale := v }
  | .settleUpExtMs => { c with settleUpExtMs := v }
  | .settleUpXtalMs => { c with settleUpXtalMs := v }
  | .settleDownMs => { c with settleDownMs := v }

/-! ## The transport's answers (R50) -/

/-- The answer the next `BusWrite` gets. -/
def Transport.nextWrite (t : Transport) : WriteAnswer :=
  match t.writes with
  | r :: _ => r
  | [] => Config.freeWrite t.draws

/-- The answer the next `BusRead` gets. -/
def Transport.nextRead (t : Transport) : ReadAnswer :=
  match t.reads with
  | r :: _ => r
  | [] => Config.freeRead t.draws

/-- The answer the next `BusScan` gets. -/
def Transport.nextScan (t : Transport) : ScanAnswer :=
  match t.scans with
  | r :: _ => r
  | [] => Config.freeScan t.draws

/-- The transport after a `BusWrite` was answered. -/
def Transport.afterWrite (t : Transport) : Transport :=
  match t.writes with
  | _ :: rest => { t with writes := rest }
  | [] => { t with draws := t.draws + 1 }

/-- The transport after a `BusRead` was answered. -/
def Transport.afterRead (t : Transport) : Transport :=
  match t.reads with
  | _ :: rest => { t with reads := rest }
  | [] => { t with draws := t.draws + 1 }

/-- The transport after a `BusScan` was answered. -/
def Transport.afterScan (t : Transport) : Transport :=
  match t.scans with
  | _ :: rest => { t with scans := rest }
  | [] => { t with draws := t.draws + 1 }

/-- The 128 bus addresses, 0x00 to 0x7F, rising (R51). -/
def allAddrs : List Addr := (List.range 128).map (BitVec.ofNat 7)

/-- A finite set of addresses in its one canonical form, strictly rising (R52; log entry 14). -/
def canonAddrs (l : List Addr) : List Addr := allAddrs.filter (fun a => l.contains a)

/-- A scan answer as the trace records it: its set in canonical form (R52). -/
def canonScan : ScanAnswer → ScanAnswer
  | .found l => .found (canonAddrs l)
  | .busErr => .busErr

/-! ## Bus primitives: each appends exactly one event to the trace (R12, R52) -/

/-- Append one event to the trace (R52). -/
def emit (e : Event) (s : State) : State := { s with trace := s.trace ++ [e] }

/-- `BusWrite(a, f)`: the event and the answer's use; the answer is `s.bus.nextWrite` (R12, R55). -/
def busWrite (a : Addr) (f : List Byte) (s : State) : State :=
  emit (.write a f s.bus.nextWrite) { s with bus := s.bus.afterWrite }

/-- `BusRead(a, n)`: the event and the answer's use; the answer is `s.bus.nextRead` (R12, R56). -/
def busRead (a : Addr) (n : Nat) (s : State) : State :=
  emit (.read a n s.bus.nextRead) { s with bus := s.bus.afterRead }

/-- `BusScan()`: the event and the answer's use; the answer is `s.bus.nextScan` (R12, R56). -/
def busScan (s : State) : State :=
  emit (.scan (canonScan s.bus.nextScan)) { s with bus := s.bus.afterScan }

/-- `Delay(ms)`: cannot fail (R12, R250). -/
def delay (ms : Half) (s : State) : State := emit (.delay ms.toNat) s

/-! ## Completion and acceptance -/

/-- `finish(code)` (R12, R32, R211): the one way a request ends, with an error code or without. -/
def finish (c : ResultCode) (s : State) : State :=
  { s with resultCode := c, busy := false, seq := [], wstate := .idle }

/-- The code of a request whose program ran to its end (R213). -/
def endCode (errSeen : Bool) : ResultCode := if errSeen then .chipError else .ok

/-- What acceptance writes, whatever the checks say (R31). -/
def latch (w : ReqWord) (s : State) : State :=
  { s with
    curReq := w, busy := true, resultCode := .none, resultKind := .none, resultLen := 0,
    resultBytes := Vector.replicate 14 0x00, errSeen := false }

/-- Acceptance of a request word (R31): the latch, then either the completion code of the check that failed or the
program into SEQ. -/
def accept (w : ReqWord) (checked : Except ResultCode (List MicroOp)) (s : State) : State :=
  match checked with
  | .error c => finish c (latch w s)
  | .ok program => { latch w s with seq := program }

/-- A request that meets BUSY = 1 is held: it stays on the port, not accepted, not lost, not answered (R31). -/
def hold (w : ReqWord) (s : State) : State := { s with port := w :: s.port }

/-- A request on the port: accepted where BUSY = 0, held where BUSY = 1 (R31; log entry 4). -/
def present (w : ReqWord) (checked : Except ResultCode (List MicroOp)) (s : State) : State :=
  if s.busy then hold w s else accept w checked s

/-! ## Micro-operations with one bus event -/

/-- `WR(f)` (R55, R196): one BusWrite to ADDR; CTS_SEEN is cleared whatever it answers; BusErr fails BUS_ERROR.
Without an address nothing is sent (R51) and the request ends NO_ADDRESS, as R212 ends it (log entry 8). -/
def wr (f : List Byte) (s : State) : State :=
  match s.addr with
  | none => finish .noAddress s
  | some a =>
    let t := { busWrite a f s with ctsSeen := false }
    match s.bus.nextWrite with
    | .ok => t
    | .busErr => finish .busError t

/-- RESULT_BYTES from a record: its bytes in arrival order, then zeros (R30). -/
def padRecord (r : List Byte) : Vector Byte 14 := Vector.ofFn fun i => byteAt r i.val

/-- What a response of the right length writes (R150). -/
def storeRecord (n : Nat) (kind : Kind) (r : List Byte) (s : State) : State :=
  observe (byteAt r 0)
    { s with resultBytes := padRecord r, resultLen := BitVec.ofNat 5 n, resultKind := kind }

/-- `RD(n, kind)` (R150): one BusRead of n bytes; BusErr, then too short, then too long (R215). -/
def rd (n : Nat) (kind : Kind) (s : State) : State :=
  match s.addr with
  | none => finish .noAddress s
  | some a =>
    let t := busRead a n s
    match s.bus.nextRead with
    | .busErr => finish .busError t
    | .bytes r =>
      if r.length < n then finish .shortRead t
      else if n < r.length then finish .longRead t
      else storeRecord n kind r t

/-- Which legal address a scan resolves to: 0x11 before 0x63 (R57, R191). -/
def pickAddr (l : List Addr) (p : Params := Params.spec) : Option Addr := p.legalAddrs.find? fun a => l.contains a

/-- The program of RESOLVE_ADDRESS (R191): no event where the address is known, else one scan. -/
def resolve (s : State) (p : Params := Params.spec) : State :=
  match s.addr with
  | some _ => s
  | none =>
    let t := busScan s
    match s.bus.nextScan with
    | .busErr => finish .busError t
    | .found l =>
      match pickAddr l p with
      | some a => { t with addr := some a }
      | none => finish .deviceNotFound t

/-- `INVMODE` (R196). -/
def invMode (s : State) : State := { s with mode := none }

/-- `COMMIT(m)` (R196). -/
def commit (m : Mode) (s : State) : State := { s with mode := some m }

/-- The program of CONFIG_WRITE (R192). -/
def cfgWrite (r : CfgReg) (v : Half) (s : State) : State := { s with cfg := s.cfg.set r v }

/-- The program of NOTE_CHIP_RESET (R194). -/
def noteReset (s : State) : State := { s with ctsSeen := false, mode := none }

/-- The final `finish` of a program that ran to its end (R196, R213). -/
def complete (s : State) : State := finish (endCode s.errSeen) s

end Sys2Proof.Machine
end

