-- ==== Sys2Proof/Machine/Operands.lean ====
section
/-! DEFINITION. The operands of the requests and the acceptance checks (60_exceptions.md R212; 40_command_framer.md
R113 to R115; 10_state.md R24, R25): each check decides a completion code, in R212's order. -/

namespace Sys2Proof.Machine

/-- The CFG register an index names; 0x0D to 0xFF do not exist (R24). -/
def CfgReg.ofIndex (i : Byte) : Option CfgReg :=
  match i.toNat with
  | 0x00 => some .maxAttempts
  | 0x01 => some .stcMaxAttempts
  | 0x02 => some .pollIntervalMs
  | 0x03 => some .bandLoFm
  | 0x04 => some .bandHiFm
  | 0x05 => some .bandLoAm
  | 0x06 => some .bandHiAm
  | 0x07 => some .oscSource
  | 0x08 => some .refclkHz
  | 0x09 => some .refclkPrescale
  | 0x0A => some .settleUpExtMs
  | 0x0B => some .settleUpXtalMs
  | 0x0C => some .settleDownMs
  | _ => none

/-- The index of a CFG register (R24). -/
def CfgReg.index : CfgReg → Byte
  | .maxAttempts => 0x00
  | .stcMaxAttempts => 0x01
  | .pollIntervalMs => 0x02
  | .bandLoFm => 0x03
  | .bandHiFm => 0x04
  | .bandLoAm => 0x05
  | .bandHiAm => 0x06
  | .oscSource => 0x07
  | .refclkHz => 0x08
  | .refclkPrescale => 0x09
  | .settleUpExtMs => 0x0A
  | .settleUpXtalMs => 0x0B
  | .settleDownMs => 0x0C

/-- The legal values of a CFG register (R24): the attempt limits are at least 1, OSC_SOURCE is at most 1, and every
other register takes every 16-bit value. -/
def CfgReg.legal : CfgReg → Half → Bool
  | .maxAttempts, v => 1 ≤ v
  | .stcMaxAttempts, v => 1 ≤ v
  | .oscSource, v => v ≤ 1
  | .pollIntervalMs, _ | .bandLoFm, _ | .bandHiFm, _ | .bandLoAm, _ | .bandHiAm, _ | .refclkHz, _
  | .refclkPrescale, _ | .settleUpExtMs, _ | .settleUpXtalMs, _ | .settleDownMs, _ => true

/-- May SET_PROPERTY send this value (R114)?  Only the volume property has a range. -/
def propertyLegal (id value : Half) (p : Params := Params.spec) : Bool :=
  !(id == p.propRxVolume && p.volumeMax < value)

/-- The lowest legal TUNE operand of a mode (R115). -/
def bandLo (c : Cfg) : Mode → Half
  | .fm => c.bandLoFm
  | .am => c.bandLoAm

/-- The highest legal TUNE operand of a mode (R115). -/
def bandHi (c : Cfg) : Mode → Half
  | .fm => c.bandHiFm
  | .am => c.bandHiAm

/-- Is a TUNE operand in the mode's band, limits included, compared unsigned (R115)? -/
def bandLegal (c : Cfg) (m : Mode) (f : Half) : Bool := bandLo c m ≤ f && f ≤ bandHi c m

/-- The physical frequency in kHz of a 16-bit value in mode units (R113). -/
def freqKhz : Mode → Half → Nat
  | .fm, f => 10 * f.toNat
  | .am, f => f.toNat

/-- Check 2 of R212: ADDR_VALID = 1, else NO_ADDRESS. -/
def needAddr (s : State) (program : Except ResultCode (List MicroOp)) : Except ResultCode (List MicroOp) :=
  match s.addr with
  | none => .error .noAddress
  | some _ => program

/-- Check 3 of R212: MODE_VALID = 1, else NO_MODE; the program is a function of MODE. -/
def needMode (s : State) (program : Mode → Except ResultCode (List MicroOp)) : Except ResultCode (List MicroOp) :=
  match s.mode with
  | none => .error .noMode
  | some m => program m

/-- Check 4 of R212: an operand in range, else INVALID_ARGUMENT. -/
def needLegal (ok : Bool) (program : List MicroOp) : Except ResultCode (List MicroOp) :=
  if ok then .ok program else .error .invalidArgument

end Sys2Proof.Machine
end

