-- ==== Sys2Proof/Machine/Framer.lean ====
section
/-! DEFINITION. The command framer: the frame formats of 30_encoding.md R81, R86 to R88, byte by byte, as pure functions
of the request's operands, MODE and CFG[OSC_SOURCE] (40_command_framer.md R111). -/

namespace Sys2Proof.Machine

/-- POWER_UP: `[OP_POWER_UP, PU_ARG1, P_POWERUP_OPMODE]` (R81, R86). -/
def powerUpFrame (m : Mode) (oscSource : Half) (p : Params := Params.spec) : List Byte :=
  [p.wireOp .powerUp, powerUpArg1 (oscSource.getLsbD 0) m, p.powerUpOpmode]

/-- POWER_DOWN: `[OP_POWER_DOWN]` (R81). -/
def powerDownFrame (p : Params := Params.spec) : List Byte := [p.wireOp .powerDown]

/-- SET_PROPERTY: `[0x12, 0x00, hi8(P), lo8(P), hi8(V), lo8(V)]` (R81). -/
def setPropertyFrame (id value : Half) (p : Params := Params.spec) : List Byte :=
  [p.wireOp .setProperty, 0x00, hi8 id, lo8 id, hi8 value, lo8 value]

/-- GET_PROPERTY: `[OP_GET_PROPERTY, 0x00, hi8(P), lo8(P)]` (R81). -/
def getPropertyFrame (id : Half) (p : Params := Params.spec) : List Byte := [p.wireOp .getProperty, 0x00, hi8 id, lo8 id]

/-- TUNE, by mode, with the mode's zero padding (R81). -/
def tuneFrame (m : Mode) (f : Half) (p : Params := Params.spec) : List Byte :=
  match m with
  | .fm => [p.wireOp .fmTuneFreq, 0x00, hi8 f, lo8 f] ++ zeros p.tunePadFm
  | .am => [p.wireOp .amTuneFreq, 0x00, hi8 f, lo8 f] ++ zeros p.tunePadAm

/-- SEEK_START, by mode (R81, R87). -/
def seekFrame (m : Mode) (up wrap : Bool) (p : Params := Params.spec) : List Byte :=
  match m with
  | .fm => [p.wireOp .fmSeekStart, subArg (seekSub up wrap)]
  | .am => [p.wireOp .amSeekStart, subArg (seekSub up wrap), 0x00, 0x00, 0x00, 0x00]

/-- GET_STATUS, and the frame of the STC wait's poll: `[OP_GET_INT_STATUS]` (R81). -/
def getIntStatusFrame (p : Params := Params.spec) : List Byte := [p.wireOp .getIntStatus]

/-- GET_TUNE_STATUS, by mode: `[opcode, TS_ARG]` (R81, R88). -/
def tuneStatusFrame (m : Mode) (cancel intack : Bool) (p : Params := Params.spec) : List Byte :=
  match m with
  | .fm => [p.wireOp .fmTuneStatus, subArg (tuneStatusSub cancel intack)]
  | .am => [p.wireOp .amTuneStatus, subArg (tuneStatusSub cancel intack)]

/-- GET_RSQ_STATUS, by mode: `[opcode, RSQ_ARG]` (R81, R88). -/
def rsqStatusFrame (m : Mode) (intack : Bool) (p : Params := Params.spec) : List Byte :=
  match m with
  | .fm => [p.wireOp .fmRsqStatus, subArg (bit0Sub intack)]
  | .am => [p.wireOp .amRsqStatus, subArg (bit0Sub intack)]

/-- GET_REVISION and GET_REVISION_LONG: `[OP_GET_REV]` (R81). -/
def revisionFrame (p : Params := Params.spec) : List Byte := [p.wireOp .getRev]

/-- `frame(req, MODE, CFG)` (R81, R111): the frame of a command request, none for a request that has no frame.  A wire
frame is its own frame. -/
def frame (i : Instr) (m : Mode) (oscSource : Half) (p : Params := Params.spec) : Option (List Byte) :=
  match i with
  | .powerUp target => some (powerUpFrame target oscSource p)
  | .powerDown => some (powerDownFrame p)
  | .setProperty id value => some (setPropertyFrame id value p)
  | .getProperty id => some (getPropertyFrame id p)
  | .tune freq => some (tuneFrame m freq p)
  | .seekStart up wrap => some (seekFrame m up wrap p)
  | .getStatus => some (getIntStatusFrame p)
  | .getTuneStatus cancel intack => some (tuneStatusFrame m cancel intack p)
  | .getRsqStatus intack => some (rsqStatusFrame m intack p)
  | .getRevision => some (revisionFrame p)
  | .getRevisionLong => some (revisionFrame p)
  | .awaitReady | .resolveAddress | .configWrite _ _ | .noteChipReset => none
  | .wirePowerUp _ _ _ | .wireGetRev | .wirePowerDown | .wireSetProperty _ _ | .wireGetProperty _
  | .wireGetIntStatus | .wireFmTuneFreq _ | .wireFmSeekStart _ _ | .wireFmTuneStatus _ _ | .wireFmRsqStatus _
  | .wireAmTuneFreq _ | .wireAmSeekStart _ _ | .wireAmTuneStatus _ _ | .wireAmRsqStatus _ => some (i.frameBytes p)

end Sys2Proof.Machine
end

