-- ==== Sys2Proof/Machine/Gate.lean ====
section
/-! DEFINITION. The ready-wait FSM, the Readiness Gate (42_readiness_gate.md R170 to R175): the two waits, one bus event
or one delay a step (43_control_requests.md R197). -/

namespace Sys2Proof.Machine

/-- What a poll of one byte does (R171, R172): the attempt is counted, the byte observed; then success, the attempt
limit, or another round after a sleep. -/
def polled (b : Byte) (s : State) (p : Params := Params.spec) : State :=
  let t := observe b { s with attempts := s.attempts + 1 }
  if waitDone s.wkind b p then { t with wstate := .idle }
  else if waitLimit s.wkind s.cfg ≤ t.attempts then finish .timeout t
  else { t with wstate := .sleep }

/-- One poll, `BusRead(ADDR, 1)` (R170): BusErr, no byte and more than one byte end the request and are not counted. -/
def poll (s : State) (p : Params := Params.spec) : State :=
  match s.addr with
  | none => finish .noAddress s
  | some a =>
    let t := busRead a 1 s
    match s.bus.nextRead with
    | .busErr => finish .busError t
    | .bytes [] => finish .shortRead t
    | .bytes [b] => polled b t p
    | .bytes (_ :: _ :: _) => finish .longRead t

/-- One event of the state W_POLL: an STC wait that has seen CTS since the last frame first sends GET_INT_STATUS (R172);
any other poll reads at once (R171, R172).  The write and the read after it are two steps (R197; log entry 7). -/
def pollStep (s : State) (p : Params := Params.spec) : State :=
  match s.wkind with
  | .cts => poll s p
  | .stc => if s.ctsSeen then wr (getIntStatusFrame p) s else poll s p

/-- A wait starts and makes its first event in the same step (R171, R172, R197; log entry 6). -/
def startWait (k : WKind) (s : State) (p : Params := Params.spec) : State :=
  pollStep { s with wkind := k, attempts := 0, wstate := .poll } p

/-- One step of a running wait (R175). -/
def waitStep (s : State) (p : Params := Params.spec) : State :=
  match s.wstate with
  | .idle => s
  | .poll => pollStep s p
  | .sleep => { delay s.cfg.pollIntervalMs s with wstate := .poll }

/-- `PRE` (R174): a CTS wait where CTS has not been seen, else nothing. -/
def pre (s : State) (p : Params := Params.spec) : State := if s.ctsSeen then s else startWait .cts s p

end Sys2Proof.Machine
end

