-- ==== Sys2Proof/Machine/Commands.lean ====
section
/-! DEFINITION. The eleven command requests (40_command_framer.md R100 to R110).  The meaning of a request is its
acceptance (10_state.md R31, 43_control_requests.md R197 (a)): the latch, the checks in R212's order, and its program of
micro-operations, evaluated at acceptance (R195), into SEQ; the sequencer then runs the program. -/

namespace Sys2Proof.Machine

/-- The settling delay of POWER_UP: by CFG[OSC_SOURCE] (R100). -/
def settleUp (c : Cfg) : Half := if c.oscSource == 1 then c.settleUpXtalMs else c.settleUpExtMs

/-- The program of POWER_UP (R100). -/
def powerUpProgram (m : Mode) (c : Cfg) (p : Params := Params.spec) : List MicroOp :=
  [.pre, .invMode, .wr (powerUpFrame m c.oscSource p), .settle (settleUp c), .waitCts,
   .wr (setPropertyFrame p.propRefclkFreq c.refclkHz p), .waitCts,
   .wr (setPropertyFrame p.propRefclkPrescale c.refclkPrescale p), .waitCts, .commit m]

/-- The program of POWER_DOWN (R101). -/
def powerDownProgram (c : Cfg) (p : Params := Params.spec) : List MicroOp :=
  [.pre, .invMode, .wr (powerDownFrame p), .settle c.settleDownMs]

/-- The program of SET_PROPERTY (R102). -/
def setPropertyProgram (id value : Half) (p : Params := Params.spec) : List MicroOp :=
  [.pre, .wr (setPropertyFrame id value p), .waitCts]

/-- The program of a tuning command, TUNE or SEEK_START (R104, R105). -/
def tuningProgram (f : List Byte) : List MicroOp := [.pre, .wr f, .waitStc, .waitCts]

/-- The program of a query (R103, R106 to R110). -/
def queryProgram (f : List Byte) (n : Nat) (kind : Kind) : List MicroOp := [.pre, .wr f, .waitCts, .rd n kind]

/-- RESULT_KIND of GET_TUNE_STATUS (R90). -/
def tuneStatusKind : Mode → Kind
  | .fm => .tuneStatusFm
  | .am => .tuneStatusAm

/-- RESULT_KIND of GET_RSQ_STATUS (R90). -/
def rsqStatusKind : Mode → Kind
  | .fm => .rsqStatusFm
  | .am => .rsqStatusAm

/-- POWER_UP (R100). -/
def execPowerUp (m : Mode) (s : State) (p : Params := Params.spec) : Outcome :=
  .next (present (Instr.powerUp m).word (needAddr s (.ok (powerUpProgram m s.cfg p))) s)

/-- POWER_DOWN (R101). -/
def execPowerDown (s : State) (p : Params := Params.spec) : Outcome :=
  .next (present Instr.powerDown.word (needAddr s (.ok (powerDownProgram s.cfg p))) s)

/-- SET_PROPERTY (R102, R114). -/
def execSetProperty (id value : Half) (s : State) (p : Params := Params.spec) : Outcome :=
  .next (present (Instr.setProperty id value).word
    (needAddr s (needLegal (propertyLegal id value p) (setPropertyProgram id value p))) s)

/-- GET_PROPERTY (R103). -/
def execGetProperty (id : Half) (s : State) (p : Params := Params.spec) : Outcome :=
  .next (present (Instr.getProperty id).word
    (needAddr s (.ok (queryProgram (getPropertyFrame id p) p.getPropLen .property))) s)

/-- TUNE (R104, R115). -/
def execTune (freq : Half) (s : State) (p : Params := Params.spec) : Outcome :=
  .next (present (Instr.tune freq).word
    (needAddr s (needMode s fun m => needLegal (bandLegal s.cfg m freq) (tuningProgram (tuneFrame m freq p)))) s)

/-- SEEK_START (R105). -/
def execSeekStart (up wrap : Bool) (s : State) (p : Params := Params.spec) : Outcome :=
  .next (present (Instr.seekStart up wrap).word
    (needAddr s (needMode s fun m => .ok (tuningProgram (seekFrame m up wrap p)))) s)

/-- GET_STATUS (R106). -/
def execGetStatus (s : State) (p : Params := Params.spec) : Outcome :=
  .next (present Instr.getStatus.word
    (needAddr s (.ok (queryProgram (getIntStatusFrame p) p.lenStatus .status))) s)

/-- GET_TUNE_STATUS (R107). -/
def execGetTuneStatus (cancel intack : Bool) (s : State) (p : Params := Params.spec) : Outcome :=
  .next (present (Instr.getTuneStatus cancel intack).word
    (needAddr s (needMode s fun m =>
      .ok (queryProgram (tuneStatusFrame m cancel intack p) p.lenTuneStatus (tuneStatusKind m)))) s)

/-- GET_RSQ_STATUS (R108). -/
def execGetRsqStatus (intack : Bool) (s : State) (p : Params := Params.spec) : Outcome :=
  .next (present (Instr.getRsqStatus intack).word
    (needAddr s (needMode s fun m =>
      .ok (queryProgram (rsqStatusFrame m intack p) p.lenRsqStatus (rsqStatusKind m)))) s)

/-- GET_REVISION (R109). -/
def execGetRevision (s : State) (p : Params := Params.spec) : Outcome :=
  .next (present Instr.getRevision.word
    (needAddr s (.ok (queryProgram (revisionFrame p) p.lenRevision .revision))) s)

/-- GET_REVISION_LONG (R110). -/
def execGetRevisionLong (s : State) (p : Params := Params.spec) : Outcome :=
  .next (present Instr.getRevisionLong.word
    (needAddr s (.ok (queryProgram (revisionFrame p) p.lenRevision .revision))) s)

end Sys2Proof.Machine
end

