-- ==== Sys2Proof/Machine/Control.lean ====
section
/-! DEFINITION. The four control requests (42_readiness_gate.md R173; 43_control_requests.md R191, R192, R194), and the
acceptance of an illegal request word (30_encoding.md R73).  As for the commands, the meaning of a request is its
acceptance. -/

namespace Sys2Proof.Machine

/-- AWAIT_READY (R173): it polls at least once, whatever CTS_SEEN holds. -/
def execAwaitReady (s : State) : Outcome :=
  .next (present Instr.awaitReady.word (needAddr s (.ok [.waitCts])) s)

/-- RESOLVE_ADDRESS (R191): no check but the word's legality. -/
def execResolveAddress (s : State) : Outcome :=
  .next (present Instr.resolveAddress.word (.ok [.resolve]) s)

/-- The check of CONFIG_WRITE: an index that exists and a legal value, else INVALID_ARGUMENT (R25, R192). -/
def configWriteChecked (index : Byte) (value : Half) : Except ResultCode (List MicroOp) :=
  match CfgReg.ofIndex index with
  | none => .error .invalidArgument
  | some r => needLegal (r.legal value) [.cfgWrite r value]

/-- CONFIG_WRITE (R192): no address is needed. -/
def execConfigWrite (index : Byte) (value : Half) (s : State) : Outcome :=
  .next (present (Instr.configWrite index value).word (configWriteChecked index value) s)

/-- NOTE_CHIP_RESET (R194): no check but the word's legality. -/
def execNoteChipReset (s : State) : Outcome :=
  .next (present Instr.noteChipReset.word (.ok [.noteReset]) s)

/-- A word that is no legal request: accepted, and ended with ILLEGAL_REQUEST in the same step (R73, R212). -/
def illegalRequest (w : ReqWord) (s : State) : State := present w (.error .illegalRequest) s

end Sys2Proof.Machine
end

