-- ==== Sys2Proof/Machine/Wire.lean ====
section
/-! DEFINITION. The fourteen wire frames (30_encoding.md R80 to R88).  The meaning of a frame is the micro-operation WR
that sends it: one BusWrite of exactly its bytes to ADDR, CTS_SEEN cleared, BUS_ERROR where the bus fails (20_memory.md
R55, 43_control_requests.md R196; log entry 5). -/

namespace Sys2Proof.Machine

/-- WIRE_POWER_UP (R86). -/
def execWirePowerUp (xoscen : Bool) (func : Mode) (opmode : Byte) (s : State) (p : Params := Params.spec) : Outcome :=
  .next (wr ((Instr.wirePowerUp xoscen func opmode).frameBytes p) s)

/-- WIRE_GET_REV (R109). -/
def execWireGetRev (s : State) (p : Params := Params.spec) : Outcome :=
  .next (wr (Instr.wireGetRev.frameBytes p) s)

/-- WIRE_POWER_DOWN (R101). -/
def execWirePowerDown (s : State) (p : Params := Params.spec) : Outcome :=
  .next (wr (Instr.wirePowerDown.frameBytes p) s)

/-- WIRE_SET_PROPERTY (R102). -/
def execWireSetProperty (id value : Half) (s : State) (p : Params := Params.spec) : Outcome :=
  .next (wr ((Instr.wireSetProperty id value).frameBytes p) s)

/-- WIRE_GET_PROPERTY (R103). -/
def execWireGetProperty (id : Half) (s : State) (p : Params := Params.spec) : Outcome :=
  .next (wr ((Instr.wireGetProperty id).frameBytes p) s)

/-- WIRE_GET_INT_STATUS (R106). -/
def execWireGetIntStatus (s : State) (p : Params := Params.spec) : Outcome :=
  .next (wr (Instr.wireGetIntStatus.frameBytes p) s)

/-- WIRE_FM_TUNE_FREQ (R104). -/
def execWireFmTuneFreq (freq : Half) (s : State) (p : Params := Params.spec) : Outcome :=
  .next (wr ((Instr.wireFmTuneFreq freq).frameBytes p) s)

/-- WIRE_FM_SEEK_START (R105). -/
def execWireFmSeekStart (up wrap : Bool) (s : State) (p : Params := Params.spec) : Outcome :=
  .next (wr ((Instr.wireFmSeekStart up wrap).frameBytes p) s)

/-- WIRE_FM_TUNE_STATUS (R107). -/
def execWireFmTuneStatus (cancel intack : Bool) (s : State) (p : Params := Params.spec) : Outcome :=
  .next (wr ((Instr.wireFmTuneStatus cancel intack).frameBytes p) s)

/-- WIRE_FM_RSQ_STATUS (R108). -/
def execWireFmRsqStatus (intack : Bool) (s : State) (p : Params := Params.spec) : Outcome :=
  .next (wr ((Instr.wireFmRsqStatus intack).frameBytes p) s)

/-- WIRE_AM_TUNE_FREQ (R104). -/
def execWireAmTuneFreq (freq : Half) (s : State) (p : Params := Params.spec) : Outcome :=
  .next (wr ((Instr.wireAmTuneFreq freq).frameBytes p) s)

/-- WIRE_AM_SEEK_START (R105). -/
def execWireAmSeekStart (up wrap : Bool) (s : State) (p : Params := Params.spec) : Outcome :=
  .next (wr ((Instr.wireAmSeekStart up wrap).frameBytes p) s)

/-- WIRE_AM_TUNE_STATUS (R107). -/
def execWireAmTuneStatus (cancel intack : Bool) (s : State) (p : Params := Params.spec) : Outcome :=
  .next (wr ((Instr.wireAmTuneStatus cancel intack).frameBytes p) s)

/-- WIRE_AM_RSQ_STATUS (R108). -/
def execWireAmRsqStatus (intack : Bool) (s : State) (p : Params := Params.spec) : Outcome :=
  .next (wr ((Instr.wireAmRsqStatus intack).frameBytes p) s)

end Sys2Proof.Machine
end

