-- ==== Sys2Proof/Machine/Dispatch.lean ====
section
/-! DEFINITION. One arm per instruction: the call of its meaning. -/

namespace Sys2Proof.Machine

def exec (i : Instr) (s : State) : Host.Outcome State Fault Refusal :=
  match i with
  | .powerUp m => Sys2Proof.Machine.execPowerUp m s
  | .powerDown => Sys2Proof.Machine.execPowerDown s
  | .setProperty id value => Sys2Proof.Machine.execSetProperty id value s
  | .getProperty id => Sys2Proof.Machine.execGetProperty id s
  | .tune freq => Sys2Proof.Machine.execTune freq s
  | .seekStart up wrap => Sys2Proof.Machine.execSeekStart up wrap s
  | .getStatus => Sys2Proof.Machine.execGetStatus s
  | .getTuneStatus cancel intack => Sys2Proof.Machine.execGetTuneStatus cancel intack s
  | .getRsqStatus intack => Sys2Proof.Machine.execGetRsqStatus intack s
  | .getRevision => Sys2Proof.Machine.execGetRevision s
  | .getRevisionLong => Sys2Proof.Machine.execGetRevisionLong s
  | .awaitReady => Sys2Proof.Machine.execAwaitReady s
  | .resolveAddress => Sys2Proof.Machine.execResolveAddress s
  | .configWrite index value => Sys2Proof.Machine.execConfigWrite index value s
  | .noteChipReset => Sys2Proof.Machine.execNoteChipReset s
  | .wirePowerUp xoscen func opmode => Sys2Proof.Machine.execWirePowerUp xoscen func opmode s
  | .wireGetRev => Sys2Proof.Machine.execWireGetRev s
  | .wirePowerDown => Sys2Proof.Machine.execWirePowerDown s
  | .wireSetProperty id value => Sys2Proof.Machine.execWireSetProperty id value s
  | .wireGetProperty id => Sys2Proof.Machine.execWireGetProperty id s
  | .wireGetIntStatus => Sys2Proof.Machine.execWireGetIntStatus s
  | .wireFmTuneFreq freq => Sys2Proof.Machine.execWireFmTuneFreq freq s
  | .wireFmSeekStart up wrap => Sys2Proof.Machine.execWireFmSeekStart up wrap s
  | .wireFmTuneStatus cancel intack => Sys2Proof.Machine.execWireFmTuneStatus cancel intack s
  | .wireFmRsqStatus intack => Sys2Proof.Machine.execWireFmRsqStatus intack s
  | .wireAmTuneFreq freq => Sys2Proof.Machine.execWireAmTuneFreq freq s
  | .wireAmSeekStart up wrap => Sys2Proof.Machine.execWireAmSeekStart up wrap s
  | .wireAmTuneStatus cancel intack => Sys2Proof.Machine.execWireAmTuneStatus cancel intack s
  | .wireAmRsqStatus intack => Sys2Proof.Machine.execWireAmRsqStatus intack s

end Sys2Proof.Machine
end

