-- ==== Sys2Proof/Machine/Sequencer.lean ====
section
/-! DEFINITION. The sequencer (43_control_requests.md R195 to R198): what the next step does, and what each
micro-operation does. -/

namespace Sys2Proof.Machine

/-- One micro-operation (R196). -/
def runMicro (m : MicroOp) (s : State) (p : Params := Params.spec) : State :=
  match m with
  | .pre => pre s p
  | .invMode => invMode s
  | .wr f => wr f s
  | .settle ms => delay ms s
  | .waitCts => startWait .cts s p
  | .waitStc => startWait .stc s p
  | .rd n kind => rd n kind s
  | .commit mode => commit mode s
  | .resolve => resolve s p
  | .cfgWrite r v => cfgWrite r v s
  | .noteReset => noteReset s

/-- What the next step is (R197), with the state it starts from: the request or the micro-operation it takes is
already removed from the port or from SEQ. -/
inductive Fetched where
  /-- BUSY = 0 and no request is presented: no step is enabled. -/
  | stuck
  /-- An instruction runs: a legal request on the port, or the frame of a WR. -/
  | instr (i : Instr) (s : State)
  /-- (a) with a word that is no legal request. -/
  | illegal (w : ReqWord) (s : State)
  /-- (b) or (c) of a running wait. -/
  | wait (s : State)
  /-- (b), (c) or (d): the head micro-operation. -/
  | micro (m : MicroOp) (s : State)
  /-- (e): the final `finish`. -/
  | done (s : State)
  deriving DecidableEq, Repr

/-- Acceptance: the request word on the port, decoded (R31, R74). -/
def fetchRequest (s : State) : Fetched :=
  match s.port with
  | [] => .stuck
  | w :: rest =>
    match decodeRequest w with
    | .ok i => .instr i { s with port := rest }
    | .error _ => .illegal w { s with port := rest }

/-- The head of SEQ (R32, R196); the bytes of a WR are read as the frame they are, and a byte sequence that is no frame,
which no program holds, is sent as R196 sends any (log entry 9). -/
def fetchMicro (s : State) (p : Params := Params.spec) : Fetched :=
  match s.seq with
  | [] => .done s
  | .wr f :: rest =>
    match decodeFrame f p with
    | .ok i => .instr i { s with seq := rest }
    | .error _ => .micro (.wr f) { s with seq := rest }
  | m :: rest => .micro m { s with seq := rest }

/-- What the next step does (R197): a request where BUSY = 0; else the running wait; else the head of SEQ. -/
def fetch (s : State) (p : Params := Params.spec) : Fetched :=
  if s.busy then
    match s.wstate with
    | .idle => fetchMicro s p
    | .poll => .wait s
    | .sleep => .wait s
  else fetchRequest s

/-- What the step does with what it takes (R197); `ex` is the meaning of an instruction. -/
def runFetched (ex : Instr → State → Outcome) (f : Fetched) (p : Params := Params.spec) : Outcome :=
  match f with
  | .stuck => .fault .idle
  | .instr i t => ex i t
  | .illegal w t => .next (illegalRequest w t)
  | .wait t => .next (waitStep t p)
  | .micro m t => .next (runMicro m t p)
  | .done t => .next (complete t)

end Sys2Proof.Machine
end

