-- ==== Sys2Proof/Machine/Step.lean ====
section
/-! DEFINITION. One step of CCODEC (43_control_requests.md R197): exactly one acceptance, bus event, delay, event-free
micro-operation or final `finish`. -/

namespace Sys2Proof.Machine

/-- One step (R197), with the parameters the spec assigns (R8); `stepWith` is the step with any. -/
def step (s : State) : Host.Outcome State Fault Refusal :=
  runFetched exec (fetch s)

/-- The state whose very next step runs the instruction of a table word: a request word is put at the head of the port
of an idle CCODEC; a frame is put, as a WR, at the head of SEQ of a busy one with no wait running (log entry 20). -/
def State.withFetchWord (s : State) (nbits w : Nat) : State :=
  if isRequestWidth nbits then
    { s with busy := false, seq := [], wstate := .idle, port := BitVec.ofNat 64 w :: s.port }
  else
    { s with busy := true, wstate := .idle, seq := .wr (tableFrame w) :: s.seq }

end Sys2Proof.Machine
end

