-- ==== Sys2Proof/Machine/Assembler.lean ====
section
/-! DEFINITION. The assembler (30_encoding.md R76) and the pseudo-requests (R77): one request a line, upper-case
mnemonics, decimal or 0x hexadecimal numbers, flags as optional bare words; a number that does not fit is refused. -/

namespace Sys2Proof.Machine

/-! ## Pseudo-requests -/

/-- The four pseudo-requests (R77); none has an opcode of its own. -/
inductive Pseudo where
  | setVolume (v : Half)
  | getVolume
  | setBandFm (lo hi : Half)
  | setBandAm (lo hi : Half)
  deriving DecidableEq, Repr

/-- The requests a pseudo-request expands to (R77). -/
def Pseudo.expand (r : Pseudo) (p : Params := Params.spec) : List Instr :=
  match r with
  | .setVolume v => [.setProperty p.propRxVolume v]
  | .getVolume => [.getProperty p.propRxVolume]
  | .setBandFm lo hi =>
    [.configWrite (CfgReg.index .bandLoFm) lo, .configWrite (CfgReg.index .bandHiFm) hi]
  | .setBandAm lo hi =>
    [.configWrite (CfgReg.index .bandLoAm) lo, .configWrite (CfgReg.index .bandHiAm) hi]

/-! ## The assembler -/

/-- Why a line is refused (R76). -/
inductive AsmError where
  /-- The line has none of the forms of R76 and R77. -/
  | badLine
  /-- A number does not fit its field: 16 bits, or 8 bits for a CFG index. -/
  | doesNotFit
  deriving DecidableEq, Repr

/-- Cut a line into words at spaces; a comma is a word of its own (log entry 18).  `word` holds the word being read,
last character first. -/
def lexFrom : List Char → List Char → List (List Char)
  | [], word => if word.isEmpty then [] else [word.reverse]
  | c :: rest, word =>
    let done := if word.isEmpty then [] else [word.reverse]
    if c == ' ' then done ++ lexFrom rest []
    else if c == ',' then done ++ [[',']] ++ lexFrom rest []
    else lexFrom rest (c :: word)

/-- The words of a line. -/
def lexLine (line : String) : List String := (lexFrom line.toList []).map String.ofList

/-- The sixteen digits, a digit's value its place in the row; the first ten are the decimal ones (R76). -/
def digitRow : List Char := "0123456789ABCDEF".toList

/-- The same row with small letters (log entry 18). -/
def smallDigitRow : List Char := "0123456789abcdef".toList

/-- The value of a digit of a base: its place among the base's digits. -/
def digitIn (base : Nat) (c : Char) : Option Nat :=
  ((digitRow.take base).idxOf? c).or ((smallDigitRow.take base).idxOf? c)

/-- The number a sequence of digits spells in a base, its first digit the most significant. -/
def numeral (base : Nat) (digits : List Char) : Option Nat :=
  digits.foldlM (fun high c => (digitIn base c).map (base * high + ·)) 0

/-- A decimal or 0x hexadecimal number (R76), of at least one digit. -/
def parseNumber (word : String) : Option Nat :=
  match word.toList with
  | '0' :: 'x' :: first :: more => numeral 16 (first :: more)
  | first :: more => numeral 10 (first :: more)
  | [] => none

/-- A number into a field of n bits: refused, not wrapped, where it does not fit (R76). -/
def fitNumber (n : Nat) (word : String) : Except AsmError (BitVec n) :=
  match parseNumber word with
  | none => .error .badLine
  | some v => if v < 2 ^ n then .ok (BitVec.ofNat n v) else .error .doesNotFit

/-- A line with one 16-bit number. -/
def asmOne (a : String) (k : Half → List Instr) : Except AsmError (List Instr) :=
  match fitNumber 16 a with
  | .error e => .error e
  | .ok x => .ok (k x)

/-- A line with two 16-bit numbers. -/
def asmTwo (a b : String) (k : Half → Half → List Instr) : Except AsmError (List Instr) :=
  match fitNumber 16 a with
  | .error e => .error e
  | .ok x => asmOne b (k x)

/-- The CFG names of R24's table. -/
def cfgNames : List (String × CfgReg) :=
  [("MAX_ATTEMPTS", .maxAttempts), ("STC_MAX_ATTEMPTS", .stcMaxAttempts), ("POLL_INTERVAL_MS", .pollIntervalMs),
   ("BAND_LO_FM", .bandLoFm), ("BAND_HI_FM", .bandHiFm), ("BAND_LO_AM", .bandLoAm), ("BAND_HI_AM", .bandHiAm),
   ("OSC_SOURCE", .oscSource), ("REFCLK_HZ", .refclkHz), ("REFCLK_PRESCALE", .refclkPrescale),
   ("SETTLE_UP_EXT_MS", .settleUpExtMs), ("SETTLE_UP_XTAL_MS", .settleUpXtalMs), ("SETTLE_DOWN_MS", .settleDownMs)]

/-- A CFG name or an 8-bit index (R76). -/
def cfgIndex (word : String) : Except AsmError Byte :=
  match cfgNames.find? fun row => row.1 == word with
  | some row => .ok row.2.index
  | none => fitNumber 8 word

/-- CONFIG_WRITE with a name or an index (R76). -/
def asmConfigWrite (reg value : String) : Except AsmError (List Instr) :=
  match cfgIndex reg with
  | .error e => .error e
  | .ok i => asmOne value fun v => [.configWrite i v]

/-- The requests a line's words stand for (R76, R77). -/
def assembleWords (words : List String) (p : Params := Params.spec) : Except AsmError (List Instr) :=
  match words with
  | ["POWER_UP", "FM"] => .ok [.powerUp .fm]
  | ["POWER_UP", "AM"] => .ok [.powerUp .am]
  | ["POWER_DOWN"] => .ok [.powerDown]
  | ["SET_PROPERTY", id, ",", value] => asmTwo id value fun x y => [.setProperty x y]
  | ["GET_PROPERTY", id] => asmOne id fun x => [.getProperty x]
  | ["TUNE", freq] => asmOne freq fun f => [.tune f]
  | ["SEEK_START"] => .ok [.seekStart false false]
  | ["SEEK_START", "UP"] => .ok [.seekStart true false]
  | ["SEEK_START", "WRAP"] => .ok [.seekStart false true]
  | ["SEEK_START", "UP", "WRAP"] => .ok [.seekStart true true]
  | ["GET_STATUS"] => .ok [.getStatus]
  | ["GET_TUNE_STATUS"] => .ok [.getTuneStatus false false]
  | ["GET_TUNE_STATUS", "INTACK"] => .ok [.getTuneStatus false true]
  | ["GET_TUNE_STATUS", "CANCEL"] => .ok [.getTuneStatus true false]
  | ["GET_TUNE_STATUS", "INTACK", "CANCEL"] => .ok [.getTuneStatus true true]
  | ["GET_RSQ_STATUS"] => .ok [.getRsqStatus false]
  | ["GET_RSQ_STATUS", "INTACK"] => .ok [.getRsqStatus true]
  | ["GET_REVISION"] => .ok [.getRevision]
  | ["GET_REVISION_LONG"] => .ok [.getRevisionLong]
  | ["AWAIT_READY"] => .ok [.awaitReady]
  | ["RESOLVE_ADDRESS"] => .ok [.resolveAddress]
  | ["CONFIG_WRITE", reg, ",", value] => asmConfigWrite reg value
  | ["NOTE_CHIP_RESET"] => .ok [.noteChipReset]
  | ["SET_VOLUME", v] => asmOne v fun x => (Pseudo.setVolume x).expand p
  | ["GET_VOLUME"] => .ok (Pseudo.getVolume.expand p)
  | ["SET_BAND_FM", lo, ",", hi] => asmTwo lo hi fun x y => (Pseudo.setBandFm x y).expand p
  | ["SET_BAND_AM", lo, ",", hi] => asmTwo lo hi fun x y => (Pseudo.setBandAm x y).expand p
  | _ => .error .badLine

/-- One line of assembly (R76). -/
def assembleLine (line : String) (p : Params := Params.spec) : Except AsmError (List Instr) :=
  assembleWords (lexLine line) p

/-- The request words of a list of requests, in order, as the host presents them. -/
def programWords (is : List Instr) : List ReqWord := is.map Instr.word

end Sys2Proof.Machine
end

