-- ==== Sys2Proof/Machine/Parser.lean ====
section
/-! DEFINITION. The response parser (41_response_parser.md R151 to R158; record layouts 30_encoding.md R90, R91): pure
and total functions of a record kind and a byte sequence.  The parsed fields are no registers (10_state.md R30). -/

namespace Sys2Proof.Machine

/-- len(kind) (R29, R90); the kind NONE has no record. -/
def Kind.len (k : Kind) (p : Params := Params.spec) : Nat :=
  match k with
  | .none => 0
  | .status => p.lenStatus
  | .property => p.getPropLen
  | .tuneStatusFm => p.lenTuneStatus
  | .tuneStatusAm => p.lenTuneStatus
  | .rsqStatusFm => p.lenRsqStatus
  | .rsqStatusAm => p.lenRsqStatus
  | .revision => p.lenRevision

/-- The fields both tune-status records have (R154). -/
structure TuneStatus where
  status : StatusFlags
  bltf : Bool
  afcrl : Bool
  valid : Bool
  resp1 : Byte
  readfreq : Half
  rssi : Byte
  snr : Byte
  deriving DecidableEq, Repr

/-- The fields both RSQ-status records have (R155). -/
structure RsqStatus where
  status : StatusFlags
  ints : Byte
  smute : Bool
  afcrl : Bool
  valid : Bool
  resp2 : Byte
  resp3 : Byte
  rssi : Byte
  snr : Byte
  deriving DecidableEq, Repr

/-- The REVISION record (R156). -/
structure Revision where
  status : StatusFlags
  pn : Byte
  fwmajor : Byte
  fwminor : Byte
  patch : Half
  cmpmajor : Byte
  cmpminor : Byte
  chiprev : Byte
  raw9_13 : List Byte
  deriving DecidableEq, Repr

/-- A parsed record (R152 to R156). -/
inductive Record where
  | status (status : StatusFlags)
  /-- PROPERTY with `P_GETPROP_LEN` = 4 (R153). -/
  | property (status : StatusFlags) (reserved : Byte) (value : Half)
  /-- PROPERTY with `P_GETPROP_LEN` = 3: no value field (R153). -/
  | propertyShort (status : StatusFlags) (raw1 raw2 : Byte)
  | tuneStatusFm (r : TuneStatus) (mult : Byte)
  | tuneStatusAm (r : TuneStatus) (antcapHi : Byte)
  | rsqStatusFm (r : RsqStatus) (pilot : Bool) (stblend : BitVec 7) (mult : Byte)
  | rsqStatusAm (r : RsqStatus) (resp6 : Byte)
  | revision (r : Revision)
  deriving DecidableEq, Repr

/-- Why a byte sequence is no record (R151). -/
inductive ParseError where
  | shortRead
  | longRead
  /-- The kind NONE names no record; R151 leaves it out (log entry 16). -/
  | noRecord
  deriving DecidableEq, Repr

/-- The fields R154 gives both tune-status records. -/
def parseTuneStatus (b : List Byte) (p : Params := Params.spec) : TuneStatus where
  status := decodeStatus (byteAt b 0) p
  bltf := (byteAt b 1).getLsbD 7
  afcrl := (byteAt b 1).getLsbD 1
  valid := (byteAt b 1).getLsbD 0
  resp1 := byteAt b 1
  readfreq := u16At b 2
  rssi := byteAt b 4
  snr := byteAt b 5

/-- The fields R155 gives both RSQ-status records. -/
def parseRsqStatus (b : List Byte) (p : Params := Params.spec) : RsqStatus where
  status := decodeStatus (byteAt b 0) p
  ints := byteAt b 1
  smute := (byteAt b 2).getLsbD 3
  afcrl := (byteAt b 2).getLsbD 1
  valid := (byteAt b 2).getLsbD 0
  resp2 := byteAt b 2
  resp3 := byteAt b 3
  rssi := byteAt b 4
  snr := byteAt b 5

/-- The REVISION record (R156). -/
def parseRevision (b : List Byte) (p : Params := Params.spec) : Revision where
  status := decodeStatus (byteAt b 0) p
  pn := byteAt b 1
  fwmajor := byteAt b 2
  fwminor := byteAt b 3
  patch := u16At b 4
  cmpmajor := byteAt b 6
  cmpminor := byteAt b 7
  chiprev := byteAt b 8
  raw9_13 := [byteAt b 9, byteAt b 10, byteAt b 11, byteAt b 12, byteAt b 13]

/-- The PROPERTY record: a value field only where `P_GETPROP_LEN` is 4 (R153). -/
def parseProperty (b : List Byte) (p : Params := Params.spec) : Record :=
  if p.getPropLen == 4 then .property (decodeStatus (byteAt b 0) p) (byteAt b 1) (u16At b 2)
  else .propertyShort (decodeStatus (byteAt b 0) p) (byteAt b 1) (byteAt b 2)

/-- The record of a byte sequence of the right length (R152 to R156). -/
def recordOf (k : Kind) (b : List Byte) (p : Params := Params.spec) : Except ParseError Record :=
  match k with
  | .none => .error .noRecord
  | .status => .ok (.status (decodeStatus (byteAt b 0) p))
  | .property => .ok (parseProperty b p)
  | .tuneStatusFm => .ok (.tuneStatusFm (parseTuneStatus b p) (byteAt b 6))
  | .tuneStatusAm => .ok (.tuneStatusAm (parseTuneStatus b p) (byteAt b 6))
  | .rsqStatusFm =>
    .ok (.rsqStatusFm (parseRsqStatus b p) ((byteAt b 3).getLsbD 7) ((byteAt b 3).extractLsb' 0 7) (byteAt b 6))
  | .rsqStatusAm => .ok (.rsqStatusAm (parseRsqStatus b p) (byteAt b 6))
  | .revision => .ok (.revision (parseRevision b p))

/-- `parse(kind, bytes)` (R151). -/
def parse (k : Kind) (b : List Byte) (p : Params := Params.spec) : Except ParseError Record :=
  if b.length < k.len p then .error .shortRead
  else if k.len p < b.length then .error .longRead
  else recordOf k b p

/-- `parse(kind, bytes)` with this `P_GETPROP_LEN`, the other parameters those of the spec (R151, R153). -/
def parseWith (getPropLen : Nat) (k : Kind) (b : List Byte) : Except ParseError Record :=
  parse k b { Params.spec with getPropLen := getPropLen }

/-- The bytes of the stored record: the first RESULT_LEN bytes of RESULT_BYTES (R30). -/
def State.recordBytes (s : State) : List Byte := s.resultBytes.toList.take s.resultLen.toNat

/-- The parsed fields of the stored record, as the host reads them: a pure function of RESULT_KIND, RESULT_LEN and
RESULT_BYTES (R30, R150). -/
def State.record (s : State) (p : Params := Params.spec) : Except ParseError Record :=
  parse s.resultKind s.recordBytes p

/-- READFREQ of a tune-status record (R154). -/
def Record.readfreq? : Record → Option Half
  | .tuneStatusFm r _ => some r.readfreq
  | .tuneStatusAm r _ => some r.readfreq
  | .status _ | .property _ _ _ | .propertyShort _ _ _ | .rsqStatusFm _ _ _ _ | .rsqStatusAm _ _ | .revision _ => none

/-- The physical value of READFREQ in kHz: by the record's kind, not by MODE (R154, R29). -/
def Record.readfreqKhz? : Record → Option Nat
  | .tuneStatusFm r _ => some (10 * r.readfreq.toNat)
  | .tuneStatusAm r _ => some r.readfreq.toNat
  | .status _ | .property _ _ _ | .propertyShort _ _ _ | .rsqStatusFm _ _ _ _ | .rsqStatusAm _ _ | .revision _ => none

end Sys2Proof.Machine
end

