-- ==== Sys2Proof/Machine/HostPort.lean ====
section
/-! DEFINITION. What the host sees and does: it reads every register with no side effect (10_state.md R37), it presents
request words (R31), and block reset is applied to CCODEC from outside (R36, R240). -/

namespace Sys2Proof.Machine

/-- The number of a completion code in RESULT_CODE (R210). -/
def ResultCode.byte : ResultCode → Byte
  | .none => 0x00
  | .ok => 0x01
  | .chipError => 0x02
  | .timeout => 0x03
  | .busError => 0x04
  | .shortRead => 0x05
  | .longRead => 0x06
  | .invalidArgument => 0x07
  | .deviceNotFound => 0x08
  | .noAddress => 0x09
  | .noMode => 0x0A
  | .illegalRequest => 0x0B

/-- The number of a record kind in RESULT_KIND (R29). -/
def Kind.bits : Kind → BitVec 4
  | .none => 0
  | .status => 1
  | .property => 2
  | .tuneStatusFm => 3
  | .tuneStatusAm => 4
  | .rsqStatusFm => 5
  | .rsqStatusAm => 6
  | .revision => 7

/-- The registers of R20 as the host reads them (R37).  ADDR and MODE have a value only while their valid flag is 1
(R21, R22). -/
structure HostView where
  ADDR_VALID : Bool
  ADDR : Option Addr
  MODE_VALID : Bool
  MODE : Option Bool
  CTS_SEEN : Bool
  CFG : List Half
  LAST_STATUS : Byte
  ERR_SEEN : Bool
  RESULT_CODE : Byte
  RESULT_KIND : BitVec 4
  RESULT_LEN : BitVec 5
  RESULT_BYTES : List Byte
  BUSY : Bool
  CUR_REQ : ReqWord
  SEQ : List MicroOp
  WKIND : WKind
  WSTATE : WState
  ATTEMPTS : Half
  deriving DecidableEq, Repr

/-- The CFG registers in the order of their indices (R24). -/
def CfgReg.all : List CfgReg :=
  [.maxAttempts, .stcMaxAttempts, .pollIntervalMs, .bandLoFm, .bandHiFm, .bandLoAm, .bandHiAm, .oscSource,
   .refclkHz, .refclkPrescale, .settleUpExtMs, .settleUpXtalMs, .settleDownMs]

/-- A host read of every register: a pure function of the state (R37, R193). -/
def hostView (s : State) : HostView where
  ADDR_VALID := s.addr.isSome
  ADDR := s.addr
  MODE_VALID := s.mode.isSome
  MODE := s.mode.map Mode.bit
  CTS_SEEN := s.ctsSeen
  CFG := CfgReg.all.map s.cfg.get
  LAST_STATUS := s.lastStatus
  ERR_SEEN := s.errSeen
  RESULT_CODE := s.resultCode.byte
  RESULT_KIND := s.resultKind.bits
  RESULT_LEN := s.resultLen
  RESULT_BYTES := s.resultBytes.toList
  BUSY := s.busy
  CUR_REQ := s.curReq
  SEQ := s.seq
  WKIND := s.wkind
  WSTATE := s.wstate
  ATTEMPTS := s.attempts

/-- A host read of one CFG register by index; 0x0D to 0xFF do not exist (R24, R37). -/
def hostReadCfg (i : Byte) (s : State) : Option Half := (CfgReg.ofIndex i).map s.cfg.get

/-- The host puts more requests behind those it already presents (R31; log entry 2). -/
def hostPresent (words : List ReqWord) (s : State) : State := { s with port := s.port ++ words }

/-- Block reset, applied to CCODEC from outside at any time (R36, R240): every register and the trace take their reset
values; what the host presents and what the transport will answer are not CCODEC's (log entry 17). -/
def blockReset (s : State) (p : Params := Params.spec) : State :=
  { State.resetWith p with port := s.port, bus := s.bus }

end Sys2Proof.Machine
end

