-- ==== Sys2Proof/Machine/WithParams.lean ====
section
/-! DEFINITION. CCODEC with its implementation parameters as arguments (00_scope.md R8, 10_state.md R38): the meaning of
an instruction, the step, and the machine, for any parameters.  `exec`, `step` and `core` are these with `Params.spec`,
which Laws/Params.lean proves (log entry 13). -/

namespace Sys2Proof.Machine

/-- The meaning of an instruction where the parameters are these: each is the one that `exec` calls. -/
def execWith (p : Params) (i : Instr) (s : State) : Outcome :=
  match i with
  | .powerUp m => execPowerUp m s p
  | .powerDown => execPowerDown s p
  | .setProperty id value => execSetProperty id value s p
  | .getProperty id => execGetProperty id s p
  | .tune freq => execTune freq s p
  | .seekStart up wrap => execSeekStart up wrap s p
  | .getStatus => execGetStatus s p
  | .getTuneStatus cancel intack => execGetTuneStatus cancel intack s p
  | .getRsqStatus intack => execGetRsqStatus intack s p
  | .getRevision => execGetRevision s p
  | .getRevisionLong => execGetRevisionLong s p
  | .awaitReady => execAwaitReady s
  | .resolveAddress => execResolveAddress s
  | .configWrite index value => execConfigWrite index value s
  | .noteChipReset => execNoteChipReset s
  | .wirePowerUp xoscen func opmode => execWirePowerUp xoscen func opmode s p
  | .wireGetRev => execWireGetRev s p
  | .wirePowerDown => execWirePowerDown s p
  | .wireSetProperty id value => execWireSetProperty id value s p
  | .wireGetProperty id => execWireGetProperty id s p
  | .wireGetIntStatus => execWireGetIntStatus s p
  | .wireFmTuneFreq freq => execWireFmTuneFreq freq s p
  | .wireFmSeekStart up wrap => execWireFmSeekStart up wrap s p
  | .wireFmTuneStatus cancel intack => execWireFmTuneStatus cancel intack s p
  | .wireFmRsqStatus intack => execWireFmRsqStatus intack s p
  | .wireAmTuneFreq freq => execWireAmTuneFreq freq s p
  | .wireAmSeekStart up wrap => execWireAmSeekStart up wrap s p
  | .wireAmTuneStatus cancel intack => execWireAmTuneStatus cancel intack s p
  | .wireAmRsqStatus intack => execWireAmRsqStatus intack s p

/-- One step where the parameters are these (R197, R8). -/
def stepWith (p : Params) (s : State) : Outcome := runFetched (execWith p) (fetch s p) p

/-- The machine with these parameters, as the host's interface has one. -/
def coreWith (p : Params) : Host.Core where
  State := State
  Fault := Fault
  Refusal := Refusal
  step := stepWith p
  reset := State.resetWith p

/-- n steps where the parameters are these, stopping at the first fault or refusal. -/
abbrev runStepsWith (p : Params) (n : Nat) (s : State) : Outcome := Host.Core.run (coreWith p) n s

end Sys2Proof.Machine
end

