-- ==== Sys2Proof/Safety.lean ====
section
/-! DEFINITION. What a safe run is, in the terms the statements use: readings of the bus event trace (20_memory.md R51,
R55, R59), what a SEQ may still hold, and the invariants of the machine. -/

namespace Sys2Proof.Machine

/-! ## Runs -/

/-- n steps, stopping at the first fault or refusal. -/
abbrev runSteps (n : Nat) (s : State) : Host.Outcome State Fault Refusal := Host.Core.run Sys2Proof.core n s

/-- CCODEC right after block reset, with a host that presents these request words and a transport that will give these
answers (95_test_vectors.md section 3). -/
def bootWith (words : List ReqWord) (bus : Transport) : State := { State.reset with port := words, bus := bus }

/-! ## The words of the statements

These are written from the rules, not from the model's operations, so that a statement says what the rule says. -/

/-- The registers right after a request word was accepted with this program (R31). -/
def acceptedWith (w : ReqWord) (program : List MicroOp) (s : State) : State :=
  { s with
    curReq := w, busy := true, seq := program, resultCode := .none, resultKind := .none, resultLen := 0,
    resultBytes := Vector.replicate 14 0x00, errSeen := false }

/-- The registers right after a request word was accepted and a check ended it with this code (R31, R212). -/
def rejectedWith (w : ReqWord) (c : ResultCode) (s : State) : State :=
  { s with
    curReq := w, busy := false, seq := [], wstate := .idle, resultCode := c, resultKind := .none, resultLen := 0,
    resultBytes := Vector.replicate 14 0x00, errSeen := false }

/-- The registers after a request that ran to its end with this ERR_SEEN and read no record (R31, R32, R213). -/
def endedWith (w : ReqWord) (err : Bool) (s : State) : State :=
  { s with
    curReq := w, busy := false, seq := [], wstate := .idle, resultCode := if err then .chipError else .ok,
    resultKind := .none, resultLen := 0, resultBytes := Vector.replicate 14 0x00, errSeen := err }

/-- The registers a failed micro-operation leaves: `fail CODE` (R13, R32, R214). -/
def failedWith (c : ResultCode) (s : State) : State :=
  { s with resultCode := c, busy := false, seq := [], wstate := .idle }

/-- The state with this micro-operation next: BUSY = 1, no wait running, the micro-operation at the head of SEQ. -/
def AtMicro (m : MicroOp) (rest : List MicroOp) (s : State) : Prop :=
  s.busy = true ∧ s.wstate = .idle ∧ s.seq = m :: rest

/-- The bits of SUB, A and B that R72's table marks 0, by OP. -/
def zeroFields (op : BitVec 4) : BitVec 4 × Half × Half :=
  match op.toNat with
  | 0x1 => (0xE, 0xFFFF, 0xFFFF)
  | 0x3 => (0xF, 0x0000, 0x0000)
  | 0x4 => (0xF, 0x0000, 0xFFFF)
  | 0x5 => (0xF, 0x0000, 0xFFFF)
  | 0x6 => (0x3, 0xFFFF, 0xFFFF)
  | 0x8 => (0xC, 0xFFFF, 0xFFFF)
  | 0x9 => (0xE, 0xFFFF, 0xFFFF)
  | 0xE => (0xF, 0xFF00, 0x0000)
  | _ => (0xF, 0xFFFF, 0xFFFF)

/-- A query sent at once, its frame written, CTS shown by the first poll and a record of the right length read, ends
with the record stored (R103, R106 to R110): from `s`, where the transport will answer so. -/
def QueryRuns (i : Instr) (f : List Byte) (n : Nat) (k : Kind) (s : State) : Prop :=
  ∀ a b r ws rs, s.addr = some a → s.ctsSeen = true → s.bus.writes = .ok :: ws →
    s.bus.reads = .bytes [b] :: .bytes r :: rs → b.getLsbD 7 = true → r.length = n →
    ∃ s1, exec i s = .next s1 ∧
      runSteps 5 s1 = .next
        { endedWith i.word (b.getLsbD 6 || ((byteAt r 0).getLsbD 7 && (byteAt r 0).getLsbD 6)) s with
          trace := s.trace ++ [.write a f .ok, .read a 1 (.bytes [b]), .read a n (.bytes r)]
          lastStatus := byteAt r 0
          ctsSeen := (byteAt r 0).getLsbD 7
          resultKind := k
          resultLen := BitVec.ofNat 5 n
          resultBytes := Vector.ofFn fun j => r.getD j.val 0
          wkind := .cts
          attempts := 1
          bus := { s.bus with writes := ws, reads := rs } }

/-- A tuning command sent at once, its frame written, CTS and STC shown by the first poll of the STC wait and CTS by
that of the CTS wait, ends (R104, R105): from `s`, where the transport will answer so. -/
def TuningRuns (i : Instr) (f : List Byte) (s : State) : Prop :=
  ∀ a b c ws rs, s.addr = some a → s.ctsSeen = true → s.bus.writes = .ok :: ws →
    s.bus.reads = .bytes [b] :: .bytes [c] :: rs → b.getLsbD 7 = true → b.getLsbD 0 = true → c.getLsbD 7 = true →
    ∃ s1, exec i s = .next s1 ∧
      runSteps 5 s1 = .next
        { endedWith i.word (b.getLsbD 6 || c.getLsbD 6) s with
          trace := s.trace ++ [.write a f .ok, .read a 1 (.bytes [b]), .read a 1 (.bytes [c])]
          lastStatus := c
          ctsSeen := true
          wkind := .cts
          attempts := 1
          bus := { s.bus with writes := ws, reads := rs } }

/-- A tuning command whose tune-complete flag comes with the second poll: the STC wait's second attempt sends
GET_INT_STATUS, since CTS has been seen (R104, R105, R172). -/
def TuningRunsInTwoAttempts (i : Instr) (f : List Byte) (s : State) : Prop :=
  ∀ a b c d ws rs, s.addr = some a → s.ctsSeen = true → s.bus.writes = .ok :: .ok :: ws →
    s.bus.reads = .bytes [b] :: .bytes [c] :: .bytes [d] :: rs →
    b.getLsbD 7 = true → b.getLsbD 0 = false → c.getLsbD 7 = true → c.getLsbD 0 = true → d.getLsbD 7 = true →
    2 ≤ s.cfg.stcMaxAttempts →
    ∃ s1, exec i s = .next s1 ∧
      runSteps 8 s1 = .next
        { endedWith i.word (b.getLsbD 6 || c.getLsbD 6 || d.getLsbD 6) s with
          trace := s.trace ++
            [.write a f .ok, .read a 1 (.bytes [b]), .delay s.cfg.pollIntervalMs.toNat, .write a [0x14] .ok,
             .read a 1 (.bytes [c]), .read a 1 (.bytes [d])]
          lastStatus := d
          ctsSeen := true
          wkind := .cts
          attempts := 1
          bus := { s.bus with writes := ws, reads := rs } }

/-- The trace of n polls of a wait that all answer one byte, with the delays between them: a read first and last
(R171, R173). -/
def pollTrace (a : Addr) (b : Byte) (ms : Nat) : Nat → List Event
  | 0 => []
  | 1 => [.read a 1 (.bytes [b])]
  | n + 1 => .read a 1 (.bytes [b]) :: .delay ms :: pollTrace a b ms n

/-! ## Readings of the trace (R52) -/

/-- Is the event a command frame write?  Every BusWrite carries one complete command frame (R55). -/
def Event.isWrite : Event → Bool
  | .write _ _ _ => true
  | .read _ _ _ | .scan _ | .delay _ => false

/-- Is the event a read? -/
def Event.isRead : Event → Bool
  | .read _ _ _ => true
  | .write _ _ _ | .scan _ | .delay _ => false

/-- Is the event a delay? -/
def Event.isDelay : Event → Bool
  | .delay _ => true
  | .write _ _ _ | .read _ _ _ | .scan _ => false

/-- Is the event a successful read whose byte 0 has bit 7 = 1 (R59)?  A read succeeds where its answer has exactly the
bytes asked for (R150, R170). -/
def Event.showsCts : Event → Bool
  | .read _ n (.bytes r) => r.length == n && statusCts (byteAt r 0)
  | .read _ _ .busErr => false
  | .write _ _ _ | .scan _ | .delay _ => false

/-- Does the event go to a legal chip address, or to none (R51, R57)? -/
def Event.addrLegal : Event → Bool
  | .write a _ _ => Config.legalAddrs.contains a
  | .read a _ _ => Config.legalAddrs.contains a
  | .scan _ | .delay _ => true

/-- Has CTS been shown since the last frame write, one event on? -/
def readyNext (ready : Bool) (e : Event) : Bool := !e.isWrite && (ready || e.showsCts)

/-- Has CTS been shown since the last frame write, after these events? -/
def readyAfter (ready : Bool) (es : List Event) : Bool := es.foldl readyNext ready

/-- Is every frame write in these events preceded by a read that showed CTS after the frame write before it (R59)? -/
def guarded (ready : Bool) : List Event → Bool
  | [] => true
  | e :: es => (!e.isWrite || ready) && guarded (readyNext ready e) es

/-- Every frame write of these events is preceded by a read that showed CTS, and between any two of them there is one
(R59). -/
def Separated (es : List Event) : Prop :=
  (∀ before w after, es = before ++ w :: after → w.isWrite = true → ∃ e, e ∈ before ∧ e.showsCts = true) ∧
  (∀ before w between v after, es = before ++ w :: (between ++ v :: after) → w.isWrite = true → v.isWrite = true →
    ∃ e, e ∈ between ∧ e.showsCts = true)

/-! ## What SEQ may hold -/

/-- Is a byte sequence one of R81's frames, reserved bits zero (R82, R83)? -/
def frameOk (f : List Byte) : Bool :=
  match decodeFrame f with
  | .ok i => i.wellFormed
  | .error _ => false

/-- May this micro-operation stand in SEQ: its frame is one of R81's, its record length is its kind's (R90), its CFG
value is legal (R25)? -/
def MicroOp.legal : MicroOp → Bool
  | .wr f => frameOk f
  | .rd n k => k != .none && n == k.len
  | .cfgWrite r v => r.legal v
  | .pre | .invMode | .settle _ | .waitCts | .waitStc | .commit _ | .resolve | .noteReset => true

/-- Is every frame of SEQ written only where CTS has been seen (R174), if CTS_SEEN is now as given? -/
def seqGuarded (seen : Bool) : List MicroOp → Bool
  | [] => true
  | .pre :: rest => seqGuarded true rest
  | .waitCts :: rest => seqGuarded true rest
  | .waitStc :: rest => seqGuarded true rest
  | .wr _ :: rest => seen && seqGuarded false rest
  | .rd _ _ :: rest => seqGuarded false rest
  | .noteReset :: rest => seqGuarded false rest
  | .invMode :: rest => seqGuarded seen rest
  | .settle _ :: rest => seqGuarded seen rest
  | .commit _ :: rest => seqGuarded seen rest
  | .resolve :: rest => seqGuarded seen rest
  | .cfgWrite _ _ :: rest => seqGuarded seen rest

/-! ## Invariants -/

/-- CFG holds legal values (R24, R25). -/
def Cfg.legal (c : Cfg) : Bool := 1 ≤ c.maxAttempts && 1 ≤ c.stcMaxAttempts && c.oscSource ≤ 1

/-- An idle CCODEC has no micro-operation left and no wait running (R31 to R33). -/
def IdleInv (s : State) : Prop := s.busy = false → s.seq = [] ∧ s.wstate = .idle

/-- ADDR is a legal chip address while it is valid, and every read and write so far went to one (R21, R51, R57). -/
structure AddrInv (s : State) : Prop where
  addr : ∀ a, s.addr = some a → Config.legalAddrs.contains a = true
  trace : ∀ e, e ∈ s.trace → e.addrLegal = true

/-- CFG is legal, now and after SEQ's writes, and a running wait has attempts left (R24, R25, R33). -/
structure WaitInv (s : State) : Prop where
  cfg : s.cfg.legal = true
  seq : ∀ m, m ∈ s.seq → m.legal = true
  attempts : s.wstate ≠ .idle → s.attempts < waitLimit s.wkind s.cfg

/-- RESULT_CODE is NONE while BUSY = 1 (R28, R245), and the result registers hold one whole record or none (R30). -/
structure ResultInv (s : State) : Prop where
  code : s.busy = true → s.resultCode = .none
  seq : ∀ m, m ∈ s.seq → m.legal = true
  len : s.resultLen.toNat = s.resultKind.len
  bytes : ∀ i : Fin 14, s.resultLen.toNat ≤ i.val → s.resultBytes[i] = 0

/-- Only R81's frames are written, reserved bits zero (R81 to R83). -/
structure FrameInv (s : State) : Prop where
  seq : ∀ m, m ∈ s.seq → m.legal = true
  trace : ∀ a f r, Event.write a f r ∈ s.trace → frameOk f = true

/-- The readiness invariant (R23, R59): no command frame is written before CTS was shown after the one before it. -/
structure ReadyInv (s : State) : Prop where
  trace : guarded false s.trace = true
  seen : s.ctsSeen = true → readyAfter false s.trace = true
  seq : seqGuarded (s.wstate != .idle || s.ctsSeen) s.seq = true

end Sys2Proof.Machine
end

