-- ==== Sys2Proof/Certificates/Slice0/Obligations.lean ====
section
/-! DEFINITION. The statements for the provers.  Each docstring names the rule of spec/ a statement formalises; a clause
that rests on the model's own choice names the log entry. -/

open Sys2Proof Sys2Proof.Machine

/-! ## Encodings (30_encoding.md) -/

/-- Decoding the encoding of a well-formed instruction gives it back: no bit is dropped (R70 to R72, R80 to R88). -/
def Obligations.DecodeOfEncode : Prop :=
  ∀ i : Instr, i.wellFormed = true → decode (encode i) = .ok i

/-- Whatever decodes is the encoding of what it decodes to: each word, and each frame, has one meaning (R74, R82). -/
def Obligations.EncodeOfDecode : Prop :=
  ∀ (e : Encoded) (i : Instr), decode e = .ok i → encode i = e

/-- A word is a request exactly when `(w AND mask) = match` of that request's row of the opcode table, no word matches two
rows, and a word that matches no row is no request (R74). -/
def Obligations.RequestTableDecides : Prop :=
  ∀ w : ReqWord,
    (∀ r, r ∈ requestTable →
      (r.matches w = true ↔ ∃ i, decodeRequest w = .ok i ∧ i.isRequest = true ∧ i.mnemonic = r.mnemonic)) ∧
    (∀ r q, r ∈ requestTable → q ∈ requestTable → r.matches w = true → q.matches w = true → r = q) ∧
    ((∃ i, decodeRequest w = .ok i) → ∃ r, r ∈ requestTable ∧ r.matches w = true)

/-- The illegal words are those with OP = 0, a reserved field not zero, or a bit set that R72 marks 0; such a word is
accepted, makes no event and ends with ILLEGAL_REQUEST (R73). -/
def Obligations.IllegalRequestWords : Prop :=
  (∀ w : ReqWord,
    (∃ e, decodeRequest w = .error e) ↔
      reqOp w = 0 ∨ reqRsv1 w ≠ 0 ∨ reqRsv0 w ≠ 0 ∨
      reqSub w &&& (zeroFields (reqOp w)).1 ≠ 0 ∨
      reqA w &&& (zeroFields (reqOp w)).2.1 ≠ 0 ∨
      reqB w &&& (zeroFields (reqOp w)).2.2 ≠ 0) ∧
  (∀ (s : State) (w : ReqWord) (rest : List ReqWord) (e : DecodeError),
    s.busy = false → s.port = w :: rest → decodeRequest w = .error e →
    step s = .next (rejectedWith w .illegalRequest { s with port := rest }))

/-- Words and frames written out from R70 to R72 and R81 decode to the instruction they stand for
(95_test_vectors.md E1 to E17, F1 to F30). -/
def Obligations.WrittenWordsDecode : Prop :=
  decodeRequest 0x1100000000000000 = .ok (.powerUp .am) ∧
  decodeRequest 0x30004000003F0000 = .ok (.setProperty 0x4000 63) ∧
  decodeRequest 0x5000277E00000000 = .ok (.tune 10110) ∧
  decodeRequest 0x6C00000000000000 = .ok (.seekStart true true) ∧
  decodeRequest 0x8100000000000000 = .ok (.getTuneStatus false true) ∧
  decodeRequest 0xE000000700010000 = .ok (.configWrite 0x07 1) ∧
  decodeFrame [0x01, 0x11, 0x05] = .ok (.wirePowerUp true .am 0x05) ∧
  decodeFrame [0x12, 0x00, 0x40, 0x00, 0x00, 0x3F] = .ok (.wireSetProperty 0x4000 63) ∧
  decodeFrame [0x20, 0x00, 0x27, 0x7E, 0x00] = .ok (.wireFmTuneFreq 10110) ∧
  decodeFrame [0x41, 0x08, 0x00, 0x00, 0x00, 0x00] = .ok (.wireAmSeekStart true false) ∧
  decodeFrame [0x42, 0x03] = .ok (.wireAmTuneStatus true true)

/-- The frame of each command request is the table's frame for its mode, its operands in their places (R81, R86 to R88,
R111). -/
def Obligations.FramerSendsTheTablesFrames : Prop :=
  ∀ (m t : Mode) (osc p v f : Half) (x y : Bool),
    (frame (.powerUp t) m osc).map decodeFrame = some (.ok (.wirePowerUp (osc.getLsbD 0) t 0x05)) ∧
    (frame .powerDown m osc).map decodeFrame = some (.ok .wirePowerDown) ∧
    (frame (.setProperty p v) m osc).map decodeFrame = some (.ok (.wireSetProperty p v)) ∧
    (frame (.getProperty p) m osc).map decodeFrame = some (.ok (.wireGetProperty p)) ∧
    (frame (.tune f) .fm osc).map decodeFrame = some (.ok (.wireFmTuneFreq f)) ∧
    (frame (.tune f) .am osc).map decodeFrame = some (.ok (.wireAmTuneFreq f)) ∧
    (frame (.seekStart x y) .fm osc).map decodeFrame = some (.ok (.wireFmSeekStart x y)) ∧
    (frame (.seekStart x y) .am osc).map decodeFrame = some (.ok (.wireAmSeekStart x y)) ∧
    (frame .getStatus m osc).map decodeFrame = some (.ok .wireGetIntStatus) ∧
    (frame (.getTuneStatus x y) .fm osc).map decodeFrame = some (.ok (.wireFmTuneStatus x y)) ∧
    (frame (.getTuneStatus x y) .am osc).map decodeFrame = some (.ok (.wireAmTuneStatus x y)) ∧
    (frame (.getRsqStatus y) .fm osc).map decodeFrame = some (.ok (.wireFmRsqStatus y)) ∧
    (frame (.getRsqStatus y) .am osc).map decodeFrame = some (.ok (.wireAmRsqStatus y)) ∧
    (frame .getRevision m osc).map decodeFrame = some (.ok .wireGetRev) ∧
    (frame .getRevisionLong m osc).map decodeFrame = some (.ok .wireGetRev)

/-- Every frame is 1 to 6 bytes long, and its length is the one R82's table gives for its byte 0. -/
def Obligations.FrameLengthByFirstByte : Prop :=
  ∀ (i : Instr) (m : Mode) (osc : Half) (f : List Byte), frame i m osc = some f →
    1 ≤ f.length ∧ f.length ≤ 6 ∧
    ∃ n, (byteAt f 0, n) ∈
      ([(0x01, 3), (0x10, 1), (0x11, 1), (0x12, 6), (0x13, 4), (0x14, 1), (0x20, 5), (0x21, 2), (0x22, 2), (0x23, 2),
        (0x40, 6), (0x41, 6), (0x42, 2), (0x43, 2)] : List (Byte × Nat)) ∧ f.length = n

/-- The tune frame of either mode carries the frequency big-endian in bytes 2 and 3 (R112), and a tune-status record
that echoes those two bytes reads the frequency back (R158). -/
def Obligations.FrequencyRoundTrip : Prop :=
  ∀ (m : Mode) (f : Half),
    be16 (byteAt (tuneFrame m f) 2) (byteAt (tuneFrame m f) 3) = f ∧
    ∀ r : List Byte, r.length = 7 → byteAt r 2 = byteAt (tuneFrame m f) 2 → byteAt r 3 = byteAt (tuneFrame m f) 3 →
      ∃ x, parse (tuneStatusKind m) r = .ok x ∧ x.readfreq? = some f ∧ x.readfreqKhz? = some (freqKhz m f)

/-! ## The decoder of StatusBytes and records (41_response_parser.md) -/

/-- Observing a StatusByte: LAST_STATUS and CTS_SEEN follow it, ERR_SEEN is set where bits 7 and 6 are both 1 and is not
cleared; in any step ERR_SEEN is cleared only by the acceptance of a request (R141, R142). -/
def Obligations.ObserveStatusByte : Prop :=
  (∀ (b : Byte) (s : State),
    observe b s = { s with
      lastStatus := b, ctsSeen := b.getLsbD 7,
      errSeen := if b.getLsbD 7 = true ∧ b.getLsbD 6 = true then true else s.errSeen }) ∧
  (∀ s t : State, step s = .next t → s.busy = true → s.errSeen = true → t.errSeen = true)

/-- `parse` is total on every kind but NONE: too short is ShortRead, too long is LongRead, and every byte sequence of the
right length is a record (R151); the record a response read stored is `parse` of its answer (R150, R151). -/
def Obligations.ParserIsTotal : Prop :=
  ∀ (k : Kind) (r : List Byte), k ≠ .none →
    (r.length < k.len → parse k r = .error .shortRead) ∧
    (k.len < r.length → parse k r = .error .longRead) ∧
    (r.length = k.len → (∃ x, parse k r = .ok x) ∧ ∀ s : State, (storeRecord k.len k r s).record = parse k r)

/-- The fields of the STATUS, PROPERTY, tune-status, RSQ-status and REVISION records, each from its byte and bits
(R152 to R156), with the STATUS byte's flags (R140). -/
def Obligations.RecordFields : Prop :=
  ∀ b0 b1 b2 b3 b4 b5 b6 b7 b8 b9 b10 b11 b12 b13 : Byte,
    let st : StatusFlags := ⟨b0.getLsbD 7, b0.getLsbD 6, b0.getLsbD 0, b0⟩
    parse .status [b0] = .ok (.status st) ∧
    parseWith 4 .property [b0, b1, b2, b3] = .ok (.property st b1 (b2 ++ b3)) ∧
    parseWith 3 .property [b0, b1, b2] = .ok (.propertyShort st b1 b2) ∧
    parse .tuneStatusFm [b0, b1, b2, b3, b4, b5, b6] = .ok (.tuneStatusFm
      { status := st, bltf := b1.getLsbD 7, afcrl := b1.getLsbD 1, valid := b1.getLsbD 0, resp1 := b1,
        readfreq := b2 ++ b3, rssi := b4, snr := b5 } b6) ∧
    parse .tuneStatusAm [b0, b1, b2, b3, b4, b5, b6] = .ok (.tuneStatusAm
      { status := st, bltf := b1.getLsbD 7, afcrl := b1.getLsbD 1, valid := b1.getLsbD 0, resp1 := b1,
        readfreq := b2 ++ b3, rssi := b4, snr := b5 } b6) ∧
    parse .rsqStatusFm [b0, b1, b2, b3, b4, b5, b6] = .ok (.rsqStatusFm
      { status := st, ints := b1, smute := b2.getLsbD 3, afcrl := b2.getLsbD 1, valid := b2.getLsbD 0, resp2 := b2,
        resp3 := b3, rssi := b4, snr := b5 } (b3.getLsbD 7) (b3.extractLsb' 0 7) b6) ∧
    parse .rsqStatusAm [b0, b1, b2, b3, b4, b5, b6] = .ok (.rsqStatusAm
      { status := st, ints := b1, smute := b2.getLsbD 3, afcrl := b2.getLsbD 1, valid := b2.getLsbD 0, resp2 := b2,
        resp3 := b3, rssi := b4, snr := b5 } b6) ∧
    parse .revision [b0, b1, b2, b3, b4, b5, b6, b7, b8, b9, b10, b11, b12, b13] = .ok (.revision
      { status := st, pn := b1, fwmajor := b2, fwminor := b3, patch := b4 ++ b5, cmpmajor := b6, cmpminor := b7,
        chiprev := b8, raw9_13 := [b9, b10, b11, b12, b13] })

/-- A response read: BusErr, then too short, then too long end the request and store nothing; a response of the right
length is stored whole, padded with zeros, and its byte 0 observed (R150, R30, R215). -/
def Obligations.ResponseRead : Prop :=
  ∀ (s : State) (n : Nat) (k : Kind) (rest : List MicroOp) (a : Addr), AtMicro (.rd n k) rest s → s.addr = some a →
    let t := { s with
      seq := rest, trace := s.trace ++ [.read a n s.bus.nextRead], bus := s.bus.afterRead }
    (s.bus.nextRead = .busErr → step s = .next (failedWith .busError t)) ∧
    (∀ r, s.bus.nextRead = .bytes r → r.length < n → step s = .next (failedWith .shortRead t)) ∧
    (∀ r, s.bus.nextRead = .bytes r → n < r.length → step s = .next (failedWith .longRead t)) ∧
    (∀ r, s.bus.nextRead = .bytes r → r.length = n →
      step s = .next { t with
        resultBytes := Vector.ofFn fun j => r.getD j.val 0
        resultLen := BitVec.ofNat 5 n
        resultKind := k
        lastStatus := byteAt r 0
        ctsSeen := (byteAt r 0).getLsbD 7
        errSeen := s.errSeen || ((byteAt r 0).getLsbD 7 && (byteAt r 0).getLsbD 6) })

/-! ## Reset (10_state.md R36, 70_reset_and_hazards.md R240) -/

/-- Block reset, from any state, and the state it leaves at power on: every register at R36's value (CFG at R24's reset
column, its three settling delays the OPEN parameters), and the bus event trace empty. -/
def Obligations.BlockResetValues : Prop :=
  ∀ s : State, s = State.reset ∨ (∃ before, s = blockReset before) →
    hostView s =
      { ADDR_VALID := false, ADDR := none, MODE_VALID := false, MODE := none, CTS_SEEN := false
        CFG := [50, 50, 10, 0x1900, 0x2A30, 0x0208, 0x06AE, 0, 0x8000, 1, Config.settleUpExt, Config.settleUpXtal,
          Config.settleDown]
        LAST_STATUS := 0x00, ERR_SEEN := false, RESULT_CODE := 0x00, RESULT_KIND := 0, RESULT_LEN := 0
        RESULT_BYTES := List.replicate 14 0x00, BUSY := false, CUR_REQ := 0, SEQ := [], WKIND := .cts
        WSTATE := .idle, ATTEMPTS := 0 } ∧
    s.trace = []

/-! ## Acceptance (10_state.md R31, 60_exceptions.md R212) -/

/-- A step of an idle CCODEC runs the request its port's word decodes to, the word taken off the port and CUR_REQ the
word itself; a step that finds a WR at the head of SEQ runs the wire frame its bytes decode to (R31, R32, R196,
R197; log entries 3 and 5). -/
def Obligations.StepRunsTheDecodedInstruction : Prop :=
  (∀ (s : State) (w : ReqWord) (rest : List ReqWord) (i : Instr),
    s.busy = false → s.port = w :: rest → decodeRequest w = .ok i →
    step s = exec i { s with port := rest } ∧ i.word = w) ∧
  (∀ (s : State) (f : List Byte) (rest : List MicroOp) (i : Instr),
    AtMicro (.wr f) rest s → decodeFrame f = .ok i → step s = exec i { s with seq := rest } ∧ i.frameBytes = f)

/-- POWER_UP and POWER_DOWN are accepted wherever an address is valid, with the programs of R100 and R101; nothing but
acceptance's registers changes (R31). -/
def Obligations.PowerRequestsAccepted : Prop :=
  ∀ (s : State) (a : Addr) (m : Mode), s.busy = false → s.addr = some a →
    exec (.powerUp m) s = .next (acceptedWith (reqWord 0x1 (bit0Sub m.bit) 0 0)
      [.pre, .invMode,
       .wr [0x01, powerUpArg1 (s.cfg.oscSource.getLsbD 0) m, 0x05],
       .settle (if s.cfg.oscSource = 1 then s.cfg.settleUpXtalMs else s.cfg.settleUpExtMs), .waitCts,
       .wr [0x12, 0x00, 0x02, 0x01, hi8 s.cfg.refclkHz, lo8 s.cfg.refclkHz], .waitCts,
       .wr [0x12, 0x00, 0x02, 0x02, hi8 s.cfg.refclkPrescale, lo8 s.cfg.refclkPrescale], .waitCts, .commit m] s) ∧
    exec .powerDown s = .next (acceptedWith 0x2000000000000000
      [.pre, .invMode, .wr [0x11], .settle s.cfg.settleDownMs] s)

/-- The requests that need an address alone are accepted with the programs of R102, R103, R106, R109, R110 and R173;
nothing but acceptance's registers changes (R31). -/
def Obligations.AddressRequestsAccepted : Prop :=
  ∀ (s : State) (a : Addr) (p v : Half), s.busy = false → s.addr = some a →
    (p ≠ 0x4000 ∨ v ≤ 63 → exec (.setProperty p v) s = .next (acceptedWith (reqWord 0x3 0 p v)
      [.pre, .wr [0x12, 0x00, hi8 p, lo8 p, hi8 v, lo8 v], .waitCts] s)) ∧
    exec (.getProperty p) s = .next (acceptedWith (reqWord 0x4 0 p 0)
      [.pre, .wr [0x13, 0x00, hi8 p, lo8 p], .waitCts, .rd 4 .property] s) ∧
    exec .getStatus s = .next (acceptedWith 0x7000000000000000 [.pre, .wr [0x14], .waitCts, .rd 1 .status] s) ∧
    exec .getRevision s = .next (acceptedWith 0xA000000000000000
      [.pre, .wr [0x10], .waitCts, .rd 14 .revision] s) ∧
    exec .getRevisionLong s = .next (acceptedWith 0xB000000000000000
      [.pre, .wr [0x10], .waitCts, .rd 14 .revision] s) ∧
    exec .awaitReady s = .next (acceptedWith 0xC000000000000000 [.waitCts] s)

/-- The requests that need a mode are accepted with the programs of R104, R105, R107 and R108, their opcodes and record
kinds by MODE; nothing but acceptance's registers changes (R31). -/
def Obligations.ModeRequestsAccepted : Prop :=
  ∀ (s : State) (a : Addr) (f : Half) (x y : Bool), s.busy = false → s.addr = some a →
    (s.mode = some .fm →
      (s.cfg.bandLoFm ≤ f → f ≤ s.cfg.bandHiFm →
        exec (.tune f) s = .next (acceptedWith (reqWord 0x5 0 f 0)
          [.pre, .wr [0x20, 0x00, hi8 f, lo8 f, 0x00], .waitStc, .waitCts] s)) ∧
      exec (.seekStart x y) s = .next (acceptedWith (reqWord 0x6 (seekSub x y) 0 0)
        [.pre, .wr [0x21, subArg (seekSub x y)], .waitStc, .waitCts] s) ∧
      exec (.getTuneStatus x y) s = .next (acceptedWith (reqWord 0x8 (tuneStatusSub x y) 0 0)
        [.pre, .wr [0x22, subArg (tuneStatusSub x y)], .waitCts, .rd 7 .tuneStatusFm] s) ∧
      exec (.getRsqStatus y) s = .next (acceptedWith (reqWord 0x9 (bit0Sub y) 0 0)
        [.pre, .wr [0x23, subArg (bit0Sub y)], .waitCts, .rd 7 .rsqStatusFm] s)) ∧
    (s.mode = some .am →
      (s.cfg.bandLoAm ≤ f → f ≤ s.cfg.bandHiAm →
        exec (.tune f) s = .next (acceptedWith (reqWord 0x5 0 f 0)
          [.pre, .wr [0x40, 0x00, hi8 f, lo8 f, 0x00, 0x00], .waitStc, .waitCts] s)) ∧
      exec (.seekStart x y) s = .next (acceptedWith (reqWord 0x6 (seekSub x y) 0 0)
        [.pre, .wr [0x41, subArg (seekSub x y), 0x00, 0x00, 0x00, 0x00], .waitStc, .waitCts] s) ∧
      exec (.getTuneStatus x y) s = .next (acceptedWith (reqWord 0x8 (tuneStatusSub x y) 0 0)
        [.pre, .wr [0x42, subArg (tuneStatusSub x y)], .waitCts, .rd 7 .tuneStatusAm] s) ∧
      exec (.getRsqStatus y) s = .next (acceptedWith (reqWord 0x9 (bit0Sub y) 0 0)
        [.pre, .wr [0x43, subArg (bit0Sub y)], .waitCts, .rd 7 .rsqStatusAm] s))

/-- The acceptance checks in R212's order: an illegal word, no address, no mode, an operand out of range; the first that
fails decides the code, no event is made, and nothing but acceptance's registers changes; the three requests that skip
the address and mode checks are accepted whatever ADDR_VALID and MODE_VALID hold. -/
def Obligations.AcceptanceChecksInOrder : Prop :=
  ∀ s : State, s.busy = false →
    (∀ w rest e, s.port = w :: rest → decodeRequest w = .error e →
      step s = .next (rejectedWith w .illegalRequest { s with port := rest })) ∧
    (s.addr = none →
      ∀ i, i ∈ ([.powerUp .fm, .powerUp .am, .powerDown, .getStatus, .getRevision, .getRevisionLong,
          .awaitReady] : List Instr) ∨
        (∃ p v, i = .setProperty p v) ∨ (∃ p, i = .getProperty p) ∨ (∃ f, i = .tune f) ∨
        (∃ x y, i = .seekStart x y) ∨ (∃ x y, i = .getTuneStatus x y) ∨ (∃ y, i = .getRsqStatus y) →
      exec i s = .next (rejectedWith i.word .noAddress s)) ∧
    (s.addr.isSome = true → s.mode = none →
      ∀ i, (∃ f, i = .tune f) ∨ (∃ x y, i = .seekStart x y) ∨ (∃ x y, i = .getTuneStatus x y) ∨
        (∃ y, i = .getRsqStatus y) →
      exec i s = .next (rejectedWith i.word .noMode s)) ∧
    (s.addr.isSome = true →
      (∀ v, 63 < v → exec (.setProperty 0x4000 v) s =
        .next (rejectedWith (reqWord 0x3 0 0x4000 v) .invalidArgument s)) ∧
      (∀ f, s.mode = some .fm → (f < s.cfg.bandLoFm ∨ s.cfg.bandHiFm < f) →
        exec (.tune f) s = .next (rejectedWith (reqWord 0x5 0 f 0) .invalidArgument s)) ∧
      (∀ f, s.mode = some .am → (f < s.cfg.bandLoAm ∨ s.cfg.bandHiAm < f) →
        exec (.tune f) s = .next (rejectedWith (reqWord 0x5 0 f 0) .invalidArgument s))) ∧
    (∀ (x : Byte) (v : Half), 0x0C < x ∨ ((x = 0x00 ∨ x = 0x01) ∧ v = 0) ∨ (x = 0x07 ∧ 1 < v) →
      exec (.configWrite x v) s = .next (rejectedWith (reqWord 0xE 0 (be16 0 x) v) .invalidArgument s)) ∧
    (∃ resolving noting, exec .resolveAddress s = .next (acceptedWith 0xD000000000000000 resolving s) ∧
      exec .noteChipReset s = .next (acceptedWith 0xF000000000000000 noting s) ∧
      ∀ (x : Byte) (v : Half), ¬(0x0C < x ∨ ((x = 0x00 ∨ x = 0x01) ∧ v = 0) ∨ (x = 0x07 ∧ 1 < v)) →
        ∃ writing, exec (.configWrite x v) s = .next (acceptedWith (reqWord 0xE 0 (be16 0 x) v) writing s))

/-- A volume out of [0, 63] is refused before any bus event, every volume in it is accepted (R114). -/
def Obligations.VolumeRange : Prop :=
  ∀ (s : State) (a : Addr) (v : Half), s.busy = false → s.addr = some a →
    (63 < v → exec (.setProperty 0x4000 v) s =
      .next (rejectedWith (reqWord 0x3 0 0x4000 v) .invalidArgument s)) ∧
    (v ≤ 63 → exec (.setProperty 0x4000 v) s = .next (acceptedWith (reqWord 0x3 0 0x4000 v)
      [.pre, .wr [0x12, 0x00, 0x40, 0x00, hi8 v, lo8 v], .waitCts] s))

/-- TUNE is INVALID_ARGUMENT, with no bus event, exactly where its operand is outside the band of MODE, limits included,
compared unsigned (R115). -/
def Obligations.BandRange : Prop :=
  ∀ (s : State) (a : Addr) (m : Mode) (f : Half), s.busy = false → s.addr = some a → s.mode = some m →
    let lo := match m with | .fm => s.cfg.bandLoFm | .am => s.cfg.bandLoAm
    let hi := match m with | .fm => s.cfg.bandHiFm | .am => s.cfg.bandHiAm
    (¬(lo.toNat ≤ f.toNat ∧ f.toNat ≤ hi.toNat) →
      exec (.tune f) s = .next (rejectedWith (reqWord 0x5 0 f 0) .invalidArgument s)) ∧
    (lo.toNat ≤ f.toNat ∧ f.toNat ≤ hi.toNat → ∃ program,
      exec (.tune f) s = .next (acceptedWith (reqWord 0x5 0 f 0) program s))

/-- While BUSY = 1 a presented request is held: no step takes a word off the port, and a request that meets BUSY = 1
changes nothing but that it stays on the port (R31; where it stays is log entry 4). -/
def Obligations.HeldWhileBusy : Prop :=
  (∀ s t : State, s.busy = true → step s = .next t → t.port = s.port) ∧
  (∀ (i : Instr) (s : State), i.isRequest = true → s.busy = true →
    exec i s = .next { s with port := i.word :: s.port })

/-! ## The wire frames and the micro-operations (20_memory.md R55, 43_control_requests.md R196) -/

/-- A wire frame runs as one BusWrite of exactly its bytes, those of spec/opcode_table.json's row, to ADDR: CTS_SEEN is
cleared whatever the bus answers, BusErr ends the request with BUS_ERROR, and nothing else changes (R55, R80 to R82,
R86 to R88, R196); without an address nothing is sent and the request ends NO_ADDRESS (the model's choice, log entry
8). -/
def Obligations.WireFrameIsWritten : Prop :=
  ∀ (s : State) (x y : Bool) (m : Mode) (o : Byte) (p v : Half) (i : Instr) (f : List Byte),
    (i, f) ∈ ([
      (.wirePowerUp x m o, [0x01, powerUpArg1 x m, o]),
      (.wireGetRev, [0x10]),
      (.wirePowerDown, [0x11]),
      (.wireSetProperty p v, [0x12, 0x00, hi8 p, lo8 p, hi8 v, lo8 v]),
      (.wireGetProperty p, [0x13, 0x00, hi8 p, lo8 p]),
      (.wireGetIntStatus, [0x14]),
      (.wireFmTuneFreq p, [0x20, 0x00, hi8 p, lo8 p, 0x00]),
      (.wireFmSeekStart x y, [0x21, subArg (seekSub x y)]),
      (.wireFmTuneStatus x y, [0x22, subArg (tuneStatusSub x y)]),
      (.wireFmRsqStatus y, [0x23, subArg (bit0Sub y)]),
      (.wireAmTuneFreq p, [0x40, 0x00, hi8 p, lo8 p, 0x00, 0x00]),
      (.wireAmSeekStart x y, [0x41, subArg (seekSub x y), 0x00, 0x00, 0x00, 0x00]),
      (.wireAmTuneStatus x y, [0x42, subArg (tuneStatusSub x y)]),
      (.wireAmRsqStatus y, [0x43, subArg (bit0Sub y)])] : List (Instr × List Byte)) →
    (∀ a, s.addr = some a → s.bus.nextWrite = .ok →
      exec i s = .next { s with
        trace := s.trace ++ [.write a f .ok], ctsSeen := false, bus := s.bus.afterWrite }) ∧
    (∀ a, s.addr = some a → s.bus.nextWrite = .busErr →
      exec i s = .next (failedWith .busError { s with
        trace := s.trace ++ [.write a f .busErr], ctsSeen := false, bus := s.bus.afterWrite })) ∧
    (s.addr = none → exec i s = .next (failedWith .noAddress s))

/-- INVMODE, COMMIT and PRE with CTS seen, SETTLE, and the sleep of a wait, as steps: each changes what its rule says and
no other register (R174, R175, R196). -/
def Obligations.EventFreeStepsAndDelays : Prop :=
  ∀ (s : State) (rest : List MicroOp),
    (AtMicro .invMode rest s → step s = .next { s with seq := rest, mode := none }) ∧
    (∀ m, AtMicro (.commit m) rest s → step s = .next { s with seq := rest, mode := some m }) ∧
    (∀ ms, AtMicro (.settle ms) rest s →
      step s = .next { s with seq := rest, trace := s.trace ++ [.delay ms.toNat] }) ∧
    (AtMicro .pre rest s → s.ctsSeen = true → step s = .next { s with seq := rest }) ∧
    (s.busy = true → s.wstate = .sleep →
      step s = .next { s with
        trace := s.trace ++ [.delay s.cfg.pollIntervalMs.toNat], wstate := .poll })

/-! ## The ready-wait FSM (42_readiness_gate.md) -/

/-- A poll in W_POLL: BusErr, no byte, or too many bytes end the request uncounted; one byte is counted and observed, and
then the wait succeeds, reaches its limit and ends with TIMEOUT, or goes to W_SLEEP (R170 to R172, R175). -/
def Obligations.PollOutcomes : Prop :=
  ∀ (s : State) (a : Addr), s.busy = true → s.wstate = .poll → s.addr = some a →
    s.wkind = .cts ∨ s.ctsSeen = false →
    let limit := match s.wkind with | .cts => s.cfg.maxAttempts | .stc => s.cfg.stcMaxAttempts
    let t := { s with trace := s.trace ++ [.read a 1 s.bus.nextRead], bus := s.bus.afterRead }
    let good := fun b : Byte => b.getLsbD 7 = true ∧ (s.wkind = .stc → b.getLsbD 0 = true)
    let seen := fun b : Byte => { t with
      attempts := s.attempts + 1, lastStatus := b, ctsSeen := b.getLsbD 7
      errSeen := s.errSeen || (b.getLsbD 7 && b.getLsbD 6) }
    (s.bus.nextRead = .busErr → step s = .next (failedWith .busError t)) ∧
    (s.bus.nextRead = .bytes [] → step s = .next (failedWith .shortRead t)) ∧
    (∀ b c r, s.bus.nextRead = .bytes (b :: c :: r) → step s = .next (failedWith .longRead t)) ∧
    (∀ b, s.bus.nextRead = .bytes [b] → good b → step s = .next { seen b with wstate := .idle }) ∧
    (∀ b, s.bus.nextRead = .bytes [b] → ¬good b → limit ≤ s.attempts + 1 →
      step s = .next (failedWith .timeout (seen b))) ∧
    (∀ b, s.bus.nextRead = .bytes [b] → ¬good b → s.attempts + 1 < limit →
      step s = .next { seen b with wstate := .sleep })

/-- A wait starts with ATTEMPTS = 0 and makes its first event at once (R171, R172, R174; that it is one step is log
entry 6): it steps as the same wait would from W_POLL. -/
def Obligations.WaitsStartAtOnce : Prop :=
  ∀ (s : State) (rest : List MicroOp),
    let started := fun k : WKind =>
      { s with seq := rest, wkind := k, attempts := 0, wstate := .poll }
    (AtMicro .waitCts rest s → step s = step (started .cts)) ∧
    (AtMicro .waitStc rest s → step s = step (started .stc)) ∧
    (AtMicro .pre rest s → s.ctsSeen = false → step s = step (started .cts))

/-- An STC wait that has seen CTS sends GET_INT_STATUS before its next read, and CTS_SEEN is cleared (R172, R55). -/
def Obligations.StcWaitSendsGetIntStatus : Prop :=
  ∀ (s : State) (a : Addr), s.busy = true → s.wstate = .poll → s.wkind = .stc → s.ctsSeen = true → s.addr = some a →
    let t := { s with
      trace := s.trace ++ [.write a [0x14] s.bus.nextWrite], ctsSeen := false, bus := s.bus.afterWrite }
    (s.bus.nextWrite = .ok → step s = .next t) ∧
    (s.bus.nextWrite = .busErr → step s = .next (failedWith .busError t))

/-- One WAIT_CTS ends whatever the transport answers: it returns, or it ends the request; it makes 1 to
CFG[MAX_ATTEMPTS] reads, at most CFG[MAX_ATTEMPTS] - 1 delays, and no write (R176). -/
def Obligations.WaitCtsIsBounded : Prop :=
  ∀ (s : State) (rest : List MicroOp), AtMicro .waitCts rest s → s.addr.isSome = true → 1 ≤ s.cfg.maxAttempts →
    ∃ n t es, runSteps n s = .next t ∧ t.wstate = .idle ∧
      ((t.busy = true ∧ t.seq = rest ∧ t.ctsSeen = true) ∨ (t.busy = false ∧ t.resultCode ≠ .none)) ∧
      t.trace = s.trace ++ es ∧
      1 ≤ es.countP Event.isRead ∧ es.countP Event.isRead ≤ s.cfg.maxAttempts.toNat ∧
      es.countP Event.isDelay + 1 ≤ s.cfg.maxAttempts.toNat ∧ es.countP Event.isWrite = 0

/-- One WAIT_STC, entered as every program enters it with CTS_SEEN = 0, ends whatever the transport answers, with at most
CFG[STC_MAX_ATTEMPTS] reads, and at most one less writes and delays (R177). -/
def Obligations.WaitStcIsBounded : Prop :=
  ∀ (s : State) (rest : List MicroOp), AtMicro .waitStc rest s → s.addr.isSome = true → 1 ≤ s.cfg.stcMaxAttempts →
    s.ctsSeen = false →
    ∃ n t es, runSteps n s = .next t ∧ t.wstate = .idle ∧
      ((t.busy = true ∧ t.seq = rest ∧ t.ctsSeen = true) ∨ (t.busy = false ∧ t.resultCode ≠ .none)) ∧
      t.trace = s.trace ++ es ∧
      es.countP Event.isRead ≤ s.cfg.stcMaxAttempts.toNat ∧
      es.countP Event.isWrite + 1 ≤ s.cfg.stcMaxAttempts.toNat ∧
      es.countP Event.isDelay + 1 ≤ s.cfg.stcMaxAttempts.toNat

/-- A chip that never sets CTS gives AWAIT_READY exactly MAX_ATTEMPTS reads and MAX_ATTEMPTS - 1 delays, and then TIMEOUT
(R173, R178; the source's testable property S4). -/
def Obligations.DeadChipTimesOut : Prop :=
  ∀ (s : State) (a : Addr) (b : Byte) (rs : List ReadAnswer), s.busy = false → s.wstate = .idle → s.addr = some a →
    1 ≤ s.cfg.maxAttempts → b.getLsbD 7 = false →
    s.bus.reads = List.replicate s.cfg.maxAttempts.toNat (.bytes [b]) ++ rs →
    ∃ s1, exec .awaitReady s = .next s1 ∧
      runSteps (2 * s.cfg.maxAttempts.toNat - 1) s1 = .next
        { rejectedWith 0xC000000000000000 .timeout s with
          trace := s.trace ++ pollTrace a b s.cfg.pollIntervalMs.toNat s.cfg.maxAttempts.toNat
          lastStatus := b
          ctsSeen := false
          wkind := .cts
          attempts := s.cfg.maxAttempts
          bus := { s.bus with reads := rs } }

/-! ## Whole requests -/

/-- AWAIT_READY polls at least once whatever CTS_SEEN holds, and ends OK, or CHIP_ERROR where the byte that shows CTS
shows ERR too (R173, R171). -/
def Obligations.AwaitReadyRuns : Prop :=
  ∀ (s : State) (a : Addr) (b : Byte) (rs : List ReadAnswer), s.busy = false → s.wstate = .idle → s.addr = some a →
    s.bus.reads = .bytes [b] :: rs → b.getLsbD 7 = true →
    ∃ s1, exec .awaitReady s = .next s1 ∧
      runSteps 2 s1 = .next
        { endedWith 0xC000000000000000 (b.getLsbD 6) s with
          trace := s.trace ++ [.read a 1 (.bytes [b])]
          lastStatus := b
          ctsSeen := true
          wkind := .cts
          attempts := 1
          bus := { s.bus with reads := rs } }

/-- SET_PROPERTY writes its frame once CTS has been seen (polling first where it has not) and waits for CTS
(R102, R174). -/
def Obligations.SetPropertyRuns : Prop :=
  ∀ (s : State) (a : Addr) (p v : Half) (b c : Byte) (ws : List WriteAnswer) (rs : List ReadAnswer),
    s.busy = false → s.wstate = .idle → s.addr = some a → p ≠ 0x4000 ∨ v ≤ 63 → s.bus.writes = .ok :: ws →
    b.getLsbD 7 = true → c.getLsbD 7 = true →
    (s.ctsSeen = true → s.bus.reads = .bytes [b] :: rs →
      ∃ s1, exec (.setProperty p v) s = .next s1 ∧
        runSteps 4 s1 = .next
          { endedWith (reqWord 0x3 0 p v) (b.getLsbD 6) s with
            trace := s.trace ++
              [.write a [0x12, 0x00, hi8 p, lo8 p, hi8 v, lo8 v] .ok, .read a 1 (.bytes [b])]
            lastStatus := b
            wkind := .cts
            attempts := 1
            bus := { s.bus with writes := ws, reads := rs } }) ∧
    (s.ctsSeen = false → s.bus.reads = .bytes [b] :: .bytes [c] :: rs →
      ∃ s1, exec (.setProperty p v) s = .next s1 ∧
        runSteps 4 s1 = .next
          { endedWith (reqWord 0x3 0 p v) (b.getLsbD 6 || c.getLsbD 6) s with
            trace := s.trace ++
              [.read a 1 (.bytes [b]), .write a [0x12, 0x00, hi8 p, lo8 p, hi8 v, lo8 v] .ok, .read a 1 (.bytes [c])]
            lastStatus := c
            ctsSeen := true
            wkind := .cts
            attempts := 1
            bus := { s.bus with writes := ws, reads := rs } })

/-- POWER_UP writes its frame, settles by the oscillator, sets the reference clock and prescale properties, each with a
CTS wait after it, and only then commits the mode (R100, R86). -/
def Obligations.PowerUpRuns : Prop :=
  ∀ (s : State) (a : Addr) (m : Mode) (b c d : Byte) (ws : List WriteAnswer) (rs : List ReadAnswer),
    s.busy = false → s.wstate = .idle → s.addr = some a → s.ctsSeen = true → s.cfg.oscSource ≤ 1 →
    s.bus.writes = .ok :: .ok :: .ok :: ws → s.bus.reads = .bytes [b] :: .bytes [c] :: .bytes [d] :: rs →
    b.getLsbD 7 = true → c.getLsbD 7 = true → d.getLsbD 7 = true →
    ∃ s1, exec (.powerUp m) s = .next s1 ∧
      runSteps 11 s1 = .next
        { endedWith (reqWord 0x1 (bit0Sub m.bit) 0 0) (b.getLsbD 6 || c.getLsbD 6 || d.getLsbD 6) s with
          mode := some m
          trace := s.trace ++
            [.write a [0x01, (if s.cfg.oscSource = 1 then 0x10 else 0x00) ||| (if m = .am then 0x01 else 0x00), 0x05] .ok,
             .delay (if s.cfg.oscSource = 1 then s.cfg.settleUpXtalMs else s.cfg.settleUpExtMs).toNat,
             .read a 1 (.bytes [b]),
             .write a [0x12, 0x00, 0x02, 0x01, hi8 s.cfg.refclkHz, lo8 s.cfg.refclkHz] .ok,
             .read a 1 (.bytes [c]),
             .write a [0x12, 0x00, 0x02, 0x02, hi8 s.cfg.refclkPrescale, lo8 s.cfg.refclkPrescale] .ok,
             .read a 1 (.bytes [d])]
          lastStatus := d
          ctsSeen := true
          wkind := .cts
          attempts := 1
          bus := { s.bus with writes := ws, reads := rs } }

/-- A POWER_UP whose second write fails ends with BUS_ERROR and leaves the address valid and the mode invalid: it is not
falsely advanced to powered up (R100, R214; the source's scenario S8). -/
def Obligations.PowerUpSecondWriteFails : Prop :=
  ∀ (s : State) (a : Addr) (m : Mode) (b : Byte) (ws : List WriteAnswer) (rs : List ReadAnswer),
    s.busy = false → s.wstate = .idle → s.addr = some a → s.ctsSeen = true →
    s.bus.writes = .ok :: .busErr :: ws → s.bus.reads = .bytes [b] :: rs → b.getLsbD 7 = true →
    ∃ s1 t, exec (.powerUp m) s = .next s1 ∧ runSteps 6 s1 = .next t ∧
      t.busy = false ∧ t.resultCode = .busError ∧ t.addr = some a ∧ t.mode = none ∧ t.ctsSeen = false ∧
      t.seq = [] ∧ t.resultKind = .none ∧ t.lastStatus = b ∧ t.cfg = s.cfg ∧
      t.trace = s.trace ++
        [.write a [0x01, powerUpArg1 (s.cfg.oscSource.getLsbD 0) m, 0x05] .ok,
         .delay (if s.cfg.oscSource = 1 then s.cfg.settleUpXtalMs else s.cfg.settleUpExtMs).toNat,
         .read a 1 (.bytes [b]),
         .write a [0x12, 0x00, 0x02, 0x01, hi8 s.cfg.refclkHz, lo8 s.cfg.refclkHz] .busErr]

/-- POWER_DOWN invalidates the mode, writes its frame, settles and ends, with CTS_SEEN = 0 and no wait after the write
(R101). -/
def Obligations.PowerDownRuns : Prop :=
  ∀ (s : State) (a : Addr) (ws : List WriteAnswer), s.busy = false → s.wstate = .idle → s.addr = some a →
    s.ctsSeen = true → s.bus.writes = .ok :: ws →
    ∃ s1, exec .powerDown s = .next s1 ∧
      runSteps 5 s1 = .next
        { endedWith 0x2000000000000000 false s with
          mode := none
          trace := s.trace ++ [.write a [0x11] .ok, .delay s.cfg.settleDownMs.toNat]
          ctsSeen := false
          bus := { s.bus with writes := ws } }

/-- TUNE and SEEK_START, in either mode, where the chip shows tune complete at the first poll, and where it shows it at
the second (R104, R105, R172). -/
def Obligations.TuningRequestsRun : Prop :=
  ∀ (s : State) (f : Half) (up wrap : Bool), s.busy = false → s.wstate = .idle →
    (s.mode = some .fm →
      (s.cfg.bandLoFm ≤ f → f ≤ s.cfg.bandHiFm →
        TuningRuns (.tune f) [0x20, 0x00, hi8 f, lo8 f, 0x00] s ∧
        TuningRunsInTwoAttempts (.tune f) [0x20, 0x00, hi8 f, lo8 f, 0x00] s) ∧
      TuningRuns (.seekStart up wrap) [0x21, subArg (seekSub up wrap)] s ∧
      TuningRunsInTwoAttempts (.seekStart up wrap) [0x21, subArg (seekSub up wrap)] s) ∧
    (s.mode = some .am →
      (s.cfg.bandLoAm ≤ f → f ≤ s.cfg.bandHiAm →
        TuningRuns (.tune f) [0x40, 0x00, hi8 f, lo8 f, 0x00, 0x00] s ∧
        TuningRunsInTwoAttempts (.tune f) [0x40, 0x00, hi8 f, lo8 f, 0x00, 0x00] s) ∧
      TuningRuns (.seekStart up wrap) [0x41, subArg (seekSub up wrap), 0x00, 0x00, 0x00, 0x00] s ∧
      TuningRunsInTwoAttempts (.seekStart up wrap) [0x41, subArg (seekSub up wrap), 0x00, 0x00, 0x00, 0x00] s)

/-- The queries write their frame, wait for CTS, read the record of their kind and keep it, whatever its bytes are
(R103, R106 to R110, R157). -/
def Obligations.QueriesRun : Prop :=
  ∀ (s : State) (p : Half) (x y : Bool), s.busy = false → s.wstate = .idle →
    QueryRuns (.getProperty p) [0x13, 0x00, hi8 p, lo8 p] 4 .property s ∧
    QueryRuns .getStatus [0x14] 1 .status s ∧
    QueryRuns .getRevision [0x10] 14 .revision s ∧
    QueryRuns .getRevisionLong [0x10] 14 .revision s ∧
    (s.mode = some .fm →
      QueryRuns (.getTuneStatus x y) [0x22, subArg (tuneStatusSub x y)] 7 .tuneStatusFm s ∧
      QueryRuns (.getRsqStatus y) [0x23, subArg (bit0Sub y)] 7 .rsqStatusFm s) ∧
    (s.mode = some .am →
      QueryRuns (.getTuneStatus x y) [0x42, subArg (tuneStatusSub x y)] 7 .tuneStatusAm s ∧
      QueryRuns (.getRsqStatus y) [0x43, subArg (bit0Sub y)] 7 .rsqStatusAm s)

/-- CUR_REQ is read by no step: with another word in it the machine does the same (R31, R36), so GET_REVISION_LONG, whose
acceptance differs from GET_REVISION's in CUR_REQ alone, leaves the same trace and registers (R110). -/
def Obligations.CurReqIsNeverRead : Prop :=
  (∀ (s t : State) (w : ReqWord), s.busy = true → step s = .next t →
    step { s with curReq := w } = .next { t with curReq := w }) ∧
  (∀ (s : State) (w : ReqWord), s.busy = false → step { s with curReq := w } = step s) ∧
  (∀ s t : State, s.busy = false → exec .getRevision s = .next t →
    exec .getRevisionLong s = .next { t with curReq := 0xB000000000000000 })

/-- RESOLVE_ADDRESS: where the address is valid it makes no event and ends OK; else one scan resolves to 0x11 before 0x63,
or ends DEVICE_NOT_FOUND or BUS_ERROR with the address still invalid; CTS_SEEN, MODE and CFG are unchanged (R191). -/
def Obligations.ResolveAddressRuns : Prop :=
  ∀ s : State, s.busy = false → s.wstate = .idle →
    (∀ a, s.addr = some a → ∃ s1, exec .resolveAddress s = .next s1 ∧
      runSteps 2 s1 = .next (endedWith 0xD000000000000000 false s)) ∧
    (s.addr = none →
      (∀ l rest, s.bus.scans = .found l :: rest →
        let t := { s with
          trace := s.trace ++ [.scan (canonScan (.found l))], bus := { s.bus with scans := rest } }
        (0x11 ∈ l → ∃ s1, exec .resolveAddress s = .next s1 ∧
          runSteps 2 s1 = .next { endedWith 0xD000000000000000 false t with addr := some 0x11 }) ∧
        (0x11 ∉ l → 0x63 ∈ l → ∃ s1, exec .resolveAddress s = .next s1 ∧
          runSteps 2 s1 = .next { endedWith 0xD000000000000000 false t with addr := some 0x63 }) ∧
        (0x11 ∉ l → 0x63 ∉ l → ∃ s1, exec .resolveAddress s = .next s1 ∧
          runSteps 1 s1 = .next (rejectedWith 0xD000000000000000 .deviceNotFound t))) ∧
      (∀ rest, s.bus.scans = .busErr :: rest → ∃ s1, exec .resolveAddress s = .next s1 ∧
        runSteps 1 s1 = .next (rejectedWith 0xD000000000000000 .busError { s with
          trace := s.trace ++ [.scan .busErr], bus := { s.bus with scans := rest } })))

/-- Writing a CFG register is all or nothing: an index of 0x0D or above, or a value outside the register's legal values,
ends with INVALID_ARGUMENT and changes no register of CFG; a legal value is written, ends OK with no event, reads back
exactly as written, and leaves the other twelve registers alone (R25, R192). -/
def Obligations.ConfigWriteAllOrNothing : Prop :=
  ∀ (s : State) (x : Byte) (v : Half), s.busy = false → s.wstate = .idle →
    (0x0D ≤ x ∨ ((x = 0x00 ∨ x = 0x01) ∧ v = 0) ∨ (x = 0x07 ∧ 1 < v) →
      exec (.configWrite x v) s = .next (rejectedWith (reqWord 0xE 0 (be16 0 x) v) .invalidArgument s)) ∧
    (¬(0x0D ≤ x ∨ ((x = 0x00 ∨ x = 0x01) ∧ v = 0) ∨ (x = 0x07 ∧ 1 < v)) →
      ∃ s1 c, exec (.configWrite x v) s = .next s1 ∧
        runSteps 2 s1 = .next { endedWith (reqWord 0xE 0 (be16 0 x) v) false s with cfg := c } ∧
        hostReadCfg x { s with cfg := c } = some v ∧
        ∀ y, y ≠ x → hostReadCfg y { s with cfg := c } = hostReadCfg y s)

/-- NOTE_CHIP_RESET clears CTS_SEEN and invalidates the mode, keeps the address, makes no event and ends OK (R194). -/
def Obligations.NoteChipResetRuns : Prop :=
  ∀ s : State, s.busy = false → s.wstate = .idle → ∃ s1, exec .noteChipReset s = .next s1 ∧
    runSteps 2 s1 = .next { endedWith 0xF000000000000000 false s with ctsSeen := false, mode := none }

/-! ## Completion (60_exceptions.md) -/

/-- A program that ran to its end finishes with CHIP_ERROR where ERR_SEEN = 1 and OK otherwise, and keeps every result
the request produced (R213, R196). -/
def Obligations.NormalCompletion : Prop :=
  ∀ s : State, s.busy = true → s.wstate = .idle → s.seq = [] →
    step s = .next { s with
      resultCode := if s.errSeen = true then .chipError else .ok, busy := false }

/-- A step that ends a request leaves nothing to run, sets a code that is not NONE, and sets OK or CHIP_ERROR only where
the program had run to its end, whatever ERR_SEEN holds (R210, R213, R214). -/
def Obligations.AbnormalCompletion : Prop :=
  ∀ s t : State, s.busy = true → step s = .next t → t.busy = false →
    t.seq = [] ∧ t.wstate = .idle ∧ t.resultCode ≠ .none ∧
    (t.resultCode = .ok ∨ t.resultCode = .chipError → s.seq = [] ∧ s.wstate = .idle ∧ t.trace = s.trace)

/-- The only state with no next step is the idle CCODEC with no request presented; no instruction and no step is ever
refused, and whether there is a next step does not depend on the transport (R197, R50). -/
def Obligations.OnlyIdleStops : Prop :=
  (∀ (i : Instr) (s : State), ∃ t, exec i s = .next t) ∧
  (∀ s : State, s.busy = false → s.port = [] → step s = .fault .idle) ∧
  (∀ s : State, ¬(s.busy = false ∧ s.port = []) → ∃ t, step s = .next t)

/-! ## What any step may change: the writers of each register (10_state.md) -/

/-- Once valid, the address never changes, and it becomes valid only by RESOLVE_ADDRESS (R21). -/
def Obligations.AddressIsImmutable : Prop :=
  ∀ s t : State, step s = .next t →
    (∀ a, s.addr = some a → t.addr = some a) ∧
    (s.addr = none → t.addr ≠ none → ∃ rest, s.seq = .resolve :: rest ∧ (t.addr = some 0x11 ∨ t.addr = some 0x63))

/-- MODE is written only by INVMODE and NOTE_CHIP_RESET, which invalidate it, and COMMIT, which only POWER_UP's end runs
(R22). -/
def Obligations.ModeWriters : Prop :=
  ∀ s t : State, step s = .next t → t.mode ≠ s.mode → s.busy = true ∧ s.wstate = .idle ∧
    ∃ m rest, s.seq = m :: rest ∧
      ((m = .invMode ∧ t.mode = none) ∨ (m = .noteReset ∧ t.mode = none) ∨ ∃ x, m = .commit x ∧ t.mode = some x)

/-- CFG is written by CONFIG_WRITE alone (R24). -/
def Obligations.CfgWriters : Prop :=
  ∀ s t : State, step s = .next t → t.cfg ≠ s.cfg → s.busy = true ∧ s.wstate = .idle ∧
    ∃ r v rest, s.seq = .cfgWrite r v :: rest ∧ t.cfg.get r = v ∧ ∀ q, q ≠ r → t.cfg.get q = s.cfg.get q

/-- LAST_STATUS and CTS_SEEN follow byte 0 of each successful poll read or response read; besides that, CTS_SEEN is
cleared by every frame write, whether or not it succeeds, and by NOTE_CHIP_RESET, and nothing else writes either
(R23, R26). -/
def Obligations.StatusWriters : Prop :=
  ∀ s t : State, step s = .next t →
    (∃ a n r, t.trace = s.trace ++ [.read a n (.bytes r)] ∧ r.length = n ∧
      t.lastStatus = byteAt r 0 ∧ t.ctsSeen = (byteAt r 0).getLsbD 7) ∨
    (t.lastStatus = s.lastStatus ∧ (∀ a n r, r.length = n → t.trace ≠ s.trace ++ [.read a n (.bytes r)]) ∧
      ((t.ctsSeen = s.ctsSeen ∧ ∀ a f r, t.trace ≠ s.trace ++ [.write a f r]) ∨
       (t.ctsSeen = false ∧ ∃ a f r, t.trace = s.trace ++ [.write a f r]) ∨
       (t.ctsSeen = false ∧ t.trace = s.trace ∧ ∃ rest, s.seq = .noteReset :: rest)))

/-- The result registers are written by acceptance, which clears them, by a successful response read, which stores a whole
record, and RESULT_CODE by the end of a request (R28 to R30). -/
def Obligations.ResultWriters : Prop :=
  ∀ s t : State, step s = .next t →
    ((t.resultKind = s.resultKind ∧ t.resultLen = s.resultLen ∧ t.resultBytes = s.resultBytes) ∨
     (s.busy = false ∧ t.resultKind = .none ∧ t.resultLen = 0 ∧ t.resultBytes = Vector.replicate 14 0x00) ∨
     (∃ n k rest a r, s.seq = .rd n k :: rest ∧ t.trace = s.trace ++ [.read a n (.bytes r)] ∧ r.length = n ∧
       t.resultKind = k ∧ t.resultLen = BitVec.ofNat 5 n ∧ t.resultBytes = Vector.ofFn fun j => r.getD j.val 0)) ∧
    (t.resultCode = s.resultCode ∨ t.busy = false ∨ (s.busy = false ∧ t.resultCode = .none))

/-- A step appends at most one event to the trace and changes nothing before it; acceptance appends none (R52, R197). -/
def Obligations.AtMostOneEventPerStep : Prop :=
  ∀ s t : State, step s = .next t →
    (t.trace = s.trace ∨ (s.busy = true ∧ ∃ e, t.trace = s.trace ++ [e]))

/-! ## Invariants every step keeps -/

/-- The invariants hold right after block reset, whatever the host presents and the transport will answer (R36). -/
def Obligations.InvariantsHoldAtReset : Prop :=
  ∀ (words : List ReqWord) (bus : Transport),
    IdleInv (bootWith words bus) ∧ AddrInv (bootWith words bus) ∧ WaitInv (bootWith words bus) ∧
    ResultInv (bootWith words bus) ∧ FrameInv (bootWith words bus) ∧ ReadyInv (bootWith words bus)

/-- Every step keeps: an idle CCODEC has nothing left to run and no wait running (R31 to R33). -/
def Obligations.StepKeepsIdleInv : Prop :=
  ∀ s t : State, IdleInv s → step s = .next t → IdleInv t

/-- Every step keeps: the address is a legal one while valid, and every access goes to a legal address (R21, R51, R57). -/
def Obligations.StepKeepsAddrInv : Prop :=
  ∀ s t : State, AddrInv s → step s = .next t → AddrInv t

/-- Every step keeps: CFG is legal and a running wait has attempts left, so ATTEMPTS never exceeds its limit
(R24, R25, R33). -/
def Obligations.StepKeepsWaitInv : Prop :=
  ∀ s t : State, WaitInv s → step s = .next t → WaitInv t

/-- Every step keeps: RESULT_CODE is NONE while BUSY = 1, and the result registers hold one whole record or none
(R28, R30, R245). -/
def Obligations.StepKeepsResultInv : Prop :=
  ∀ s t : State, ResultInv s → step s = .next t → ResultInv t

/-- Every step keeps: only R81's frames are written, their reserved bits zero (R81 to R83). -/
def Obligations.StepKeepsFrameInv : Prop :=
  ∀ s t : State, FrameInv s → step s = .next t → FrameInv t

/-- Every step keeps the readiness invariant: no command frame is written before CTS was shown after the one before it
(R23, R59, R174). -/
def Obligations.StepKeepsReadyInv : Prop :=
  ∀ s t : State, ReadyInv s → step s = .next t → ReadyInv t

/-- Between any two command frame writes there is a successful read whose byte 0 has bit 7 = 1, after the first of them;
the first frame write after block reset is preceded by such a read, and so is the first after NOTE_CHIP_RESET, counting
only the reads after it: for every host and every transport, over runs of any length (R59). -/
def Obligations.ReadinessOnTheTrace : Prop :=
  (∀ (words : List ReqWord) (bus : Transport) (n : Nat) (t : State),
    runSteps n (bootWith words bus) = .next t → Separated t.trace) ∧
  (∀ (s r t : State) (rest : List MicroOp) (n : Nat), ReadyInv s → AtMicro .noteReset rest s →
    step s = .next r → runSteps n r = .next t → ∃ es, t.trace = r.trace ++ es ∧ Separated es)

/-- Every request ends, whatever the transport answers, in a number of steps bounded by its program's length: no wait is
unbounded (R176, R177, R250). -/
def Obligations.EveryRequestEnds : Prop :=
  ∀ s : State, s.busy = true →
    ∃ n t, n ≤ 196608 * (s.seq.length + 1) + 1 ∧ runSteps n s = .next t ∧ t.busy = false

/-! ## The assembler (30_encoding.md R76, R77) -/

/-- A number that does not fit its field (16 bits; 8 bits for a CFG index) is refused and does not wrap, in every line that
has one; a number that fits gives the request (R76); the pseudo-requests' lines expand to R77's requests. -/
def Obligations.AssemblerRefusesWideNumbers : Prop :=
  (∀ (word : String) (n : Nat), parseNumber word = some n →
    (65536 ≤ n → assembleWords ["TUNE", word] = .error .doesNotFit ∧
      assembleWords ["GET_PROPERTY", word] = .error .doesNotFit ∧
      assembleWords ["SET_VOLUME", word] = .error .doesNotFit) ∧
    (n < 65536 → assembleWords ["TUNE", word] = .ok [.tune (BitVec.ofNat 16 n)] ∧
      assembleWords ["GET_PROPERTY", word] = .ok [.getProperty (BitVec.ofNat 16 n)] ∧
      assembleWords ["SET_VOLUME", word] = .ok [.setProperty 0x4000 (BitVec.ofNat 16 n)])) ∧
  (∀ (first second : String) (m n : Nat), parseNumber first = some m → parseNumber second = some n →
    (65536 ≤ m ∨ 65536 ≤ n →
      assembleWords ["SET_PROPERTY", first, ",", second] = .error .doesNotFit ∧
      assembleWords ["SET_BAND_FM", first, ",", second] = .error .doesNotFit ∧
      assembleWords ["SET_BAND_AM", first, ",", second] = .error .doesNotFit) ∧
    (m < 65536 → n < 65536 →
      assembleWords ["SET_PROPERTY", first, ",", second] =
        .ok [.setProperty (BitVec.ofNat 16 m) (BitVec.ofNat 16 n)] ∧
      assembleWords ["SET_BAND_FM", first, ",", second] =
        .ok [.configWrite 0x03 (BitVec.ofNat 16 m), .configWrite 0x04 (BitVec.ofNat 16 n)] ∧
      assembleWords ["SET_BAND_AM", first, ",", second] =
        .ok [.configWrite 0x05 (BitVec.ofNat 16 m), .configWrite 0x06 (BitVec.ofNat 16 n)]) ∧
    (256 ≤ m ∨ 65536 ≤ n → assembleWords ["CONFIG_WRITE", first, ",", second] = .error .doesNotFit) ∧
    (m < 256 → n < 65536 → assembleWords ["CONFIG_WRITE", first, ",", second] =
      .ok [.configWrite (BitVec.ofNat 8 m) (BitVec.ofNat 16 n)])) ∧
  (∀ (name value : String) (index : Byte) (n : Nat), parseNumber value = some n →
    (name, index) ∈ ([("MAX_ATTEMPTS", 0x00), ("STC_MAX_ATTEMPTS", 0x01), ("POLL_INTERVAL_MS", 0x02),
      ("BAND_LO_FM", 0x03), ("BAND_HI_FM", 0x04), ("BAND_LO_AM", 0x05), ("BAND_HI_AM", 0x06), ("OSC_SOURCE", 0x07),
      ("REFCLK_HZ", 0x08), ("REFCLK_PRESCALE", 0x09), ("SETTLE_UP_EXT_MS", 0x0A), ("SETTLE_UP_XTAL_MS", 0x0B),
      ("SETTLE_DOWN_MS", 0x0C)] : List (String × Byte)) →
    (65536 ≤ n → assembleWords ["CONFIG_WRITE", name, ",", value] = .error .doesNotFit) ∧
    (n < 65536 → assembleWords ["CONFIG_WRITE", name, ",", value] = .ok [.configWrite index (BitVec.ofNat 16 n)])) ∧
  assembleWords ["GET_VOLUME"] = .ok [.getProperty 0x4000] ∧
  (∀ lo hi : Half,
    (Pseudo.setBandFm lo hi).expand = [.configWrite 0x03 lo, .configWrite 0x04 hi] ∧
    (Pseudo.setBandAm lo hi).expand = [.configWrite 0x05 lo, .configWrite 0x06 hi] ∧
    Pseudo.getVolume.expand = [.getProperty 0x4000])

/-! ## The parameters (00_scope.md R8) -/

/-- The parameters of R8 are arguments of the machine: with any values of them a request's program has their opcodes,
property ids, argument byte, paddings, lengths and volume limit, a scan resolves by their addresses, the STC wait reads
their bit, and block reset takes their settling delays.  With the values the spec assigns it is the machine of the other
statements. -/
def Obligations.ParametersAreArguments : Prop :=
  (∀ s : State, stepWith Params.spec s = step s) ∧ (∀ i s, execWith Params.spec i s = exec i s) ∧
  State.resetWith Params.spec = State.reset ∧
  ∀ p : Params,
    State.resetWith p = { State.reset with
      cfg := { State.reset.cfg with
        settleUpExtMs := p.settleUpExt, settleUpXtalMs := p.settleUpXtal, settleDownMs := p.settleDown } } ∧
    (∀ (s : State) (a : Addr) (m : Mode) (x v f : Half) (y z : Bool), s.busy = false → s.addr = some a →
      execWith p (.powerUp m) s = .next (acceptedWith (reqWord 0x1 (bit0Sub m.bit) 0 0)
        [.pre, .invMode,
         .wr [p.wireOp .powerUp, powerUpArg1 (s.cfg.oscSource.getLsbD 0) m, p.powerUpOpmode],
         .settle (if s.cfg.oscSource = 1 then s.cfg.settleUpXtalMs else s.cfg.settleUpExtMs), .waitCts,
         .wr [p.wireOp .setProperty, 0x00, hi8 p.propRefclkFreq, lo8 p.propRefclkFreq,
           hi8 s.cfg.refclkHz, lo8 s.cfg.refclkHz], .waitCts,
         .wr [p.wireOp .setProperty, 0x00, hi8 p.propRefclkPrescale, lo8 p.propRefclkPrescale,
           hi8 s.cfg.refclkPrescale, lo8 s.cfg.refclkPrescale], .waitCts, .commit m] s) ∧
      execWith p .powerDown s = .next (acceptedWith 0x2000000000000000
        [.pre, .invMode, .wr [p.wireOp .powerDown], .settle s.cfg.settleDownMs] s) ∧
      (x ≠ p.propRxVolume ∨ v ≤ p.volumeMax →
        execWith p (.setProperty x v) s = .next (acceptedWith (reqWord 0x3 0 x v)
          [.pre, .wr [p.wireOp .setProperty, 0x00, hi8 x, lo8 x, hi8 v, lo8 v], .waitCts] s)) ∧
      (x = p.propRxVolume → p.volumeMax < v →
        execWith p (.setProperty x v) s = .next (rejectedWith (reqWord 0x3 0 x v) .invalidArgument s)) ∧
      execWith p (.getProperty x) s = .next (acceptedWith (reqWord 0x4 0 x 0)
        [.pre, .wr [p.wireOp .getProperty, 0x00, hi8 x, lo8 x], .waitCts, .rd p.getPropLen .property] s) ∧
      execWith p .getStatus s = .next (acceptedWith 0x7000000000000000
        [.pre, .wr [p.wireOp .getIntStatus], .waitCts, .rd p.lenStatus .status] s) ∧
      execWith p .getRevision s = .next (acceptedWith 0xA000000000000000
        [.pre, .wr [p.wireOp .getRev], .waitCts, .rd p.lenRevision .revision] s) ∧
      execWith p .getRevisionLong s = .next (acceptedWith 0xB000000000000000
        [.pre, .wr [p.wireOp .getRev], .waitCts, .rd p.lenRevision .revision] s) ∧
      (s.mode = some .fm →
        (s.cfg.bandLoFm ≤ f → f ≤ s.cfg.bandHiFm →
          execWith p (.tune f) s = .next (acceptedWith (reqWord 0x5 0 f 0)
            [.pre, .wr ([p.wireOp .fmTuneFreq, 0x00, hi8 f, lo8 f] ++ List.replicate p.tunePadFm 0x00),
             .waitStc, .waitCts] s)) ∧
        execWith p (.seekStart y z) s = .next (acceptedWith (reqWord 0x6 (seekSub y z) 0 0)
          [.pre, .wr [p.wireOp .fmSeekStart, subArg (seekSub y z)], .waitStc, .waitCts] s) ∧
        execWith p (.getTuneStatus y z) s = .next (acceptedWith (reqWord 0x8 (tuneStatusSub y z) 0 0)
          [.pre, .wr [p.wireOp .fmTuneStatus, subArg (tuneStatusSub y z)], .waitCts,
           .rd p.lenTuneStatus .tuneStatusFm] s) ∧
        execWith p (.getRsqStatus z) s = .next (acceptedWith (reqWord 0x9 (bit0Sub z) 0 0)
          [.pre, .wr [p.wireOp .fmRsqStatus, subArg (bit0Sub z)], .waitCts, .rd p.lenRsqStatus .rsqStatusFm] s)) ∧
      (s.mode = some .am →
        (s.cfg.bandLoAm ≤ f → f ≤ s.cfg.bandHiAm →
          execWith p (.tune f) s = .next (acceptedWith (reqWord 0x5 0 f 0)
            [.pre, .wr ([p.wireOp .amTuneFreq, 0x00, hi8 f, lo8 f] ++ List.replicate p.tunePadAm 0x00),
             .waitStc, .waitCts] s)) ∧
        execWith p (.seekStart y z) s = .next (acceptedWith (reqWord 0x6 (seekSub y z) 0 0)
          [.pre, .wr [p.wireOp .amSeekStart, subArg (seekSub y z), 0x00, 0x00, 0x00, 0x00], .waitStc, .waitCts] s) ∧
        execWith p (.getTuneStatus y z) s = .next (acceptedWith (reqWord 0x8 (tuneStatusSub y z) 0 0)
          [.pre, .wr [p.wireOp .amTuneStatus, subArg (tuneStatusSub y z)], .waitCts,
           .rd p.lenTuneStatus .tuneStatusAm] s) ∧
        execWith p (.getRsqStatus z) s = .next (acceptedWith (reqWord 0x9 (bit0Sub z) 0 0)
          [.pre, .wr [p.wireOp .amRsqStatus, subArg (bit0Sub z)], .waitCts,
           .rd p.lenRsqStatus .rsqStatusAm] s))) ∧
    (∀ (s : State) (a : Addr) (i : Instr) (f : List Byte) (rest : List MicroOp),
      s.addr = some a → s.bus.nextWrite = .ok →
      (encode i p = .frame f → execWith p i s = .next { s with
        trace := s.trace ++ [.write a f .ok], ctsSeen := false, bus := s.bus.afterWrite }) ∧
      (AtMicro (.wr f) rest s → stepWith p s = .next { s with
        seq := rest, trace := s.trace ++ [.write a f .ok], ctsSeen := false, bus := s.bus.afterWrite })) ∧
    (∀ (s : State) (rest : List MicroOp) (l : List Addr) (a : Addr) (pre post : List Addr),
      AtMicro .resolve rest s → s.addr = none → s.bus.nextScan = .found l →
      p.legalAddrs = pre ++ a :: post → a ∈ l → (∀ b, b ∈ pre → b ∉ l) →
      stepWith p s = .next { s with
        seq := rest, addr := some a, trace := s.trace ++ [.scan (canonScan (.found l))], bus := s.bus.afterScan }) ∧
    (∀ (s : State) (a : Addr), s.busy = true → s.wstate = .poll → s.wkind = .stc → s.addr = some a →
      (∀ b, s.ctsSeen = false → s.bus.nextRead = .bytes [b] → ∃ t, stepWith p s = .next t ∧
        ((t.busy = true ∧ t.wstate = .idle) ↔ (b.getLsbD 7 = true ∧ b.getLsbD p.stcBit = true))) ∧
      (s.ctsSeen = true → s.bus.nextWrite = .ok → stepWith p s = .next { s with
        trace := s.trace ++ [.write a [p.wireOp .getIntStatus] .ok], ctsSeen := false, bus := s.bus.afterWrite })) ∧
    (∀ (s : State) (a : Addr) (x : Half) (b : Byte) (r : List Byte) (ws : List WriteAnswer) (rs : List ReadAnswer),
      s.busy = false → s.wstate = .idle → s.addr = some a → s.ctsSeen = true → s.bus.writes = .ok :: ws →
      s.bus.reads = .bytes [b] :: .bytes r :: rs → b.getLsbD 7 = true → p.getPropLen = 3 → r.length = 3 →
      ∃ s1 t, execWith p (.getProperty x) s = .next s1 ∧ runStepsWith p 5 s1 = .next t ∧ t.busy = false ∧
        (t.resultCode = .ok ∨ t.resultCode = .chipError) ∧
        t.trace = s.trace ++ [.write a [p.wireOp .getProperty, 0x00, hi8 x, lo8 x] .ok, .read a 1 (.bytes [b]),
          .read a 3 (.bytes r)] ∧
        t.resultKind = .property ∧ t.resultLen = 3 ∧ t.recordBytes = r ∧
        t.record p = .ok (.propertyShort
          ⟨(byteAt r 0).getLsbD 7, (byteAt r 0).getLsbD 6, (byteAt r 0).getLsbD p.stcBit, byteAt r 0⟩
          (byteAt r 1) (byteAt r 2)))
end

