-- ==== Sys2Proof/Laws/Encoding.lean ====
section
/-! SUPPORT. The small lemmas of the bit fields, the decoder and the encoder: each field of an encoding reads back. -/

namespace Sys2Proof

/-! ## The parameters the spec assigns (R8) -/

@[simp] theorem spec_wireOp : Params.spec.wireOp = Config.wireOp := rfl
@[simp] theorem spec_legalAddrs : Params.spec.legalAddrs = Config.legalAddrs := rfl
@[simp] theorem spec_volumeMax : Params.spec.volumeMax = Config.volumeMax := rfl
@[simp] theorem spec_lenStatus : Params.spec.lenStatus = Config.lenStatus := rfl
@[simp] theorem spec_lenTuneStatus : Params.spec.lenTuneStatus = Config.lenTuneStatus := rfl
@[simp] theorem spec_lenRsqStatus : Params.spec.lenRsqStatus = Config.lenRsqStatus := rfl
@[simp] theorem spec_lenRevision : Params.spec.lenRevision = Config.lenRevision := rfl
@[simp] theorem spec_getPropLen : Params.spec.getPropLen = Config.getPropLen := rfl
@[simp] theorem spec_propRefclkFreq : Params.spec.propRefclkFreq = Config.propRefclkFreq := rfl
@[simp] theorem spec_propRefclkPrescale : Params.spec.propRefclkPrescale = Config.propRefclkPrescale := rfl
@[simp] theorem spec_propRxVolume : Params.spec.propRxVolume = Config.propRxVolume := rfl
@[simp] theorem spec_powerUpOpmode : Params.spec.powerUpOpmode = Config.powerUpOpmode := rfl
@[simp] theorem spec_tunePadFm : Params.spec.tunePadFm = Config.tunePadFm := rfl
@[simp] theorem spec_tunePadAm : Params.spec.tunePadAm = Config.tunePadAm := rfl
@[simp] theorem spec_stcBit : Params.spec.stcBit = Config.stcBit := rfl
@[simp] theorem spec_settleUpExt : Params.spec.settleUpExt = Config.settleUpExt := rfl
@[simp] theorem spec_settleUpXtal : Params.spec.settleUpXtal = Config.settleUpXtal := rfl
@[simp] theorem spec_settleDown : Params.spec.settleDown = Config.settleDown := rfl

/-! ## Byte order (R53) -/

@[simp] theorem be16_hi8_lo8 (v : Half) : be16 (hi8 v) (lo8 v) = v := by
  unfold be16 hi8 lo8
  ext i hi
  simp
  grind

@[simp] theorem hi8_be16 (h l : Byte) : hi8 (be16 h l) = h := by
  unfold be16 hi8
  ext i hi
  simp
  grind

@[simp] theorem lo8_be16 (h l : Byte) : lo8 (be16 h l) = l := by
  unfold be16 lo8
  ext i hi
  simp
  grind

/-! ## The fields of a request word (R70) -/

@[simp] theorem reqOp_reqWord (op sub : BitVec 4) (a b : Half) : reqOp (reqWord op sub a b) = op := by
  unfold reqOp reqWord
  ext i hi
  simp
  grind

@[simp] theorem reqSub_reqWord (op sub : BitVec 4) (a b : Half) : reqSub (reqWord op sub a b) = sub := by
  unfold reqSub reqWord
  ext i hi
  simp
  grind

@[simp] theorem reqRsv1_reqWord (op sub : BitVec 4) (a b : Half) : reqRsv1 (reqWord op sub a b) = 0 := by
  unfold reqRsv1 reqWord
  ext i hi
  simp
  grind

@[simp] theorem reqA_reqWord (op sub : BitVec 4) (a b : Half) : reqA (reqWord op sub a b) = a := by
  unfold reqA reqWord
  ext i hi
  simp
  grind

@[simp] theorem reqB_reqWord (op sub : BitVec 4) (a b : Half) : reqB (reqWord op sub a b) = b := by
  unfold reqB reqWord
  ext i hi
  simp
  grind

@[simp] theorem reqRsv0_reqWord (op sub : BitVec 4) (a b : Half) : reqRsv0 (reqWord op sub a b) = 0 := by
  unfold reqRsv0 reqWord
  ext i hi
  simp
  grind

/-- A word whose reserved fields are zero is the word of its four fields. -/
theorem reqWord_of_fields (w : ReqWord) (h1 : reqRsv1 w = 0) (h0 : reqRsv0 w = 0) :
    reqWord (reqOp w) (reqSub w) (reqA w) (reqB w) = w := by
  have e : reqWord (reqOp w) (reqSub w) (reqA w) (reqB w)
      = reqOp w ++ reqSub w ++ reqRsv1 w ++ reqA w ++ reqB w ++ reqRsv0 w := by
    rw [h1, h0]; rfl
  rw [e]
  unfold reqOp reqSub reqRsv1 reqA reqB reqRsv0
  ext i hi
  simp
  grind

/-- A word built from four fields is decoded from those fields (R74). -/
@[simp] theorem decodeRequest_reqWord (op sub : BitVec 4) (a b : Half) :
    decodeRequest (reqWord op sub a b) = decodeFields op sub a b := by
  simp [decodeRequest, require]

/-! ## Rejection -/

@[simp] theorem require_true (e : DecodeError) (k : Except DecodeError Instr) : require true e k = k := rfl

@[simp] theorem require_false (e : DecodeError) (k : Except DecodeError Instr) : require false e k = .error e := rfl

theorem require_eq_ok {ok : Bool} {e : DecodeError} {k : Except DecodeError Instr} {i : Instr} :
    require ok e k = .ok i ↔ ok = true ∧ k = .ok i := by
  cases ok <;> simp [require]

/-! ## Wire frames -/

/-- The fourteen opcode bytes are distinct, so each names its own row (R80, R82). -/
@[simp] theorem wireOpOf_wireOp (op : WireOp) : wireOpOf (Config.wireOp op) = some op := by
  cases op <;> decide

/-- A byte 0 names only the row whose opcode it is (R82). -/
theorem wireOpOf_eq_some {p : Params} {b : Byte} {op : WireOp} (h : wireOpOf b p = some op) : b = p.wireOp op := by
  have hb : (p.wireOp op == b) = true := List.find?_some (p := fun o => p.wireOp o == b) h
  exact (eq_of_beq hb).symm

@[simp] theorem byteAt_cons_zero (b : Byte) (s : List Byte) : byteAt (b :: s) 0 = b := rfl

@[simp] theorem byteAt_cons_succ (b : Byte) (s : List Byte) (i : Nat) : byteAt (b :: s) (i + 1) = byteAt s i := rfl

/-- A frame decodes to what its argument bytes decode to, where its length is the one its byte 0 fixes (R82). -/
theorem decodeFrame_cons (op : WireOp) (args : List Byte) (h : args.length + 1 = op.frameLength) :
    decodeFrame (Config.wireOp op :: args) = decodeArgs op args := by
  simp [decodeFrame, h]

/-- A frame that decodes starts with a wire opcode and has its length (R82). -/
theorem decodeFrame_eq_ok {p : Params} {f : List Byte} {i : Instr} (h : decodeFrame f p = .ok i) :
    ∃ op args, f = p.wireOp op :: args ∧ args.length + 1 = op.frameLength p ∧ decodeArgs op args p = .ok i := by
  match f with
  | [] => simp [decodeFrame] at h
  | b :: args =>
    cases ho : wireOpOf b p with
    | none => simp [decodeFrame, ho] at h
    | some op =>
      simp only [decodeFrame, ho, require_eq_ok, beq_iff_eq] at h
      exact ⟨op, args, by rw [wireOpOf_eq_some ho], h.1, h.2⟩

end Sys2Proof
end

