-- ==== Sys2Proof/Laws/Frames.lean ====
section
/-! SUPPORT. A frame that decodes is the frame of what it decodes to: each byte sequence stands for at most one wire
frame, and re-encoding gives its bytes back, whatever the parameters are. -/

namespace Sys2Proof

theorem byte_of_seekBits (a : Byte) (h4 : a.extractLsb' 4 4 = 0) (h0 : a.extractLsb' 0 2 = 0) :
    subArg (seekSub (a.getLsbD 3) (a.getLsbD 2)) = a := by
  revert a; decide

theorem byte_of_tuneStatusBits (a : Byte) (h : a.extractLsb' 2 6 = 0) :
    subArg (tuneStatusSub (a.getLsbD 1) (a.getLsbD 0)) = a := by
  revert a; decide

theorem byte_of_bit0 (a : Byte) (h : a.extractLsb' 1 7 = 0) : subArg (bit0Sub (a.getLsbD 0)) = a := by
  revert a; decide

theorem byte_of_powerUpBits (a : Byte) (h5 : a.extractLsb' 5 3 = 0) (h1 : a.extractLsb' 1 3 = 0) :
    powerUpArg1 (a.getLsbD 4) (Mode.ofBit (a.getLsbD 0)) = a := by
  revert a; decide

/-- A sequence of at least three bytes has a first, a second and a third. -/
theorem three_bytes {l : List Byte} (h : 3 ≤ l.length) : ∃ x y z rest, l = x :: y :: z :: rest := by
  match l, h with
  | x :: y :: z :: rest, _ => exact ⟨x, y, z, rest, rfl⟩

/-- The argument bytes that decode to an instruction are those its encoding has (R81, R83). -/
theorem encode_decodeArgs {p : Params} {op : WireOp} {args : List Byte} {i : Instr}
    (hl : args.length + 1 = op.frameLength p) (h : decodeArgs op args p = .ok i) :
    encode i p = .frame (p.wireOp op :: args) := by
  cases op <;> simp only [WireOp.frameLength] at hl <;>
    simp only [decodeArgs, require_eq_ok, Except.ok.injEq, Bool.and_eq_true, beq_iff_eq] at h
  case powerUp =>
    obtain ⟨a, b, rfl⟩ := List.length_eq_two.mp (by omega : args.length = 2)
    obtain ⟨⟨h5, h1⟩, rfl⟩ := h
    simpa [encode] using byte_of_powerUpBits a h5 h1
  case getRev => subst h; simpa [encode] using hl
  case powerDown => subst h; simpa [encode] using hl
  case getIntStatus => subst h; simpa [encode] using hl
  case setProperty =>
    match args, hl, h with
    | [z, a, b, c, d], _, ⟨hz, e⟩ => subst e; simp at hz; simp [encode, u16At, hz]
  case getProperty =>
    match args, hl, h with
    | [z, a, b], _, ⟨hz, e⟩ => subst e; simp at hz; simp [encode, u16At, hz]
  case fmTuneFreq =>
    obtain ⟨z, a, b, pad, rfl⟩ := three_bytes (show 3 ≤ args.length by omega)
    obtain ⟨⟨hz, hp⟩, rfl⟩ := h
    simp at hz hp
    simp [encode, u16At, hz, hp]
  case amTuneFreq =>
    obtain ⟨z, a, b, pad, rfl⟩ := three_bytes (show 3 ≤ args.length by omega)
    obtain ⟨⟨hz, hp⟩, rfl⟩ := h
    simp at hz hp
    simp [encode, u16At, hz, hp]
  case fmSeekStart =>
    match args, hl, h with
    | [a], _, ⟨⟨h4, h0⟩, e⟩ => subst e; simpa [encode] using byte_of_seekBits a h4 h0
  case fmTuneStatus =>
    match args, hl, h with
    | [a], _, ⟨ha, e⟩ => subst e; simpa [encode] using byte_of_tuneStatusBits a ha
  case amTuneStatus =>
    match args, hl, h with
    | [a], _, ⟨ha, e⟩ => subst e; simpa [encode] using byte_of_tuneStatusBits a ha
  case fmRsqStatus =>
    match args, hl, h with
    | [a], _, ⟨ha, e⟩ => subst e; simpa [encode] using byte_of_bit0 a ha
  case amRsqStatus =>
    match args, hl, h with
    | [a], _, ⟨ha, e⟩ => subst e; simpa [encode] using byte_of_bit0 a ha
  case amSeekStart =>
    match args, hl, h with
    | [a, x, q, r, t], _, ⟨⟨⟨h4, h0⟩, hp⟩, e⟩ =>
      subst e; simp at hp; simpa [encode, hp] using byte_of_seekBits a h4 h0

/-- A frame is the encoding of what it decodes to. -/
theorem encode_decodeFrame {p : Params} {f : List Byte} {i : Instr} (h : decodeFrame f p = .ok i) :
    encode i p = .frame f := by
  obtain ⟨op, args, rfl, hl, ha⟩ := decodeFrame_eq_ok h
  exact encode_decodeArgs hl ha

/-- The frame bytes of what a frame decodes to are the frame. -/
theorem frameBytes_of_decodeFrame {p : Params} {f : List Byte} {i : Instr} (h : decodeFrame f p = .ok i) :
    i.frameBytes p = f := by
  simp [Instr.frameBytes, encode_decodeFrame h]

end Sys2Proof
end

