-- ==== Sys2Proof/Laws/PerInstr.lean ====
section
/-! SUPPORT. The per-instruction family `Encoding`: decoding the encoding of a well-formed instruction gives it back,
one lemma per constructor of Instr. -/

namespace Sys2Proof.Laws.Encoding

/-- The round trip of one instruction: no bit of its encoding is dropped. -/
def Statement (i : Instr) : Prop := i.wellFormed = true → decode (encode i) = .ok i

theorem powerUp (m : Mode) : Statement (.powerUp m) := by
  cases m <;> exact fun _ => by decide

theorem powerDown : Statement .powerDown := fun _ => by decide

theorem setProperty (id : Half) (value : Half) : Statement (.setProperty id value) := by
  intro _
  simp [decode, encode, decodeFields]

theorem getProperty (id : Half) : Statement (.getProperty id) := by
  intro _
  simp [decode, encode, decodeFields]

theorem tune (freq : Half) : Statement (.tune freq) := by
  intro _
  simp [decode, encode, decodeFields]

theorem seekStart (up : Bool) (wrap : Bool) : Statement (.seekStart up wrap) := by
  cases up <;> cases wrap <;> exact fun _ => by decide

theorem getStatus : Statement .getStatus := fun _ => by decide

theorem getTuneStatus (cancel : Bool) (intack : Bool) : Statement (.getTuneStatus cancel intack) := by
  cases cancel <;> cases intack <;> exact fun _ => by decide

theorem getRsqStatus (intack : Bool) : Statement (.getRsqStatus intack) := by
  cases intack <;> exact fun _ => by decide

theorem getRevision : Statement .getRevision := fun _ => by decide

theorem getRevisionLong : Statement .getRevisionLong := fun _ => by decide

theorem awaitReady : Statement .awaitReady := fun _ => by decide

theorem resolveAddress : Statement .resolveAddress := fun _ => by decide

theorem configWrite (index : Byte) (value : Half) : Statement (.configWrite index value) := by
  intro _
  simp [decode, encode, decodeFields]

theorem noteChipReset : Statement .noteChipReset := fun _ => by decide

theorem wirePowerUp (xoscen : Bool) (func : Mode) (opmode : Byte) : Statement (.wirePowerUp xoscen func opmode) := by
  intro _
  refine (decodeFrame_cons .powerUp _ rfl).trans ?_
  cases xoscen <;> cases func <;> simp [decodeArgs, powerUpArg1, Mode.func, Mode.ofBit]

theorem wireGetRev : Statement .wireGetRev := fun _ => by decide

theorem wirePowerDown : Statement .wirePowerDown := fun _ => by decide

theorem wireSetProperty (id : Half) (value : Half) : Statement (.wireSetProperty id value) := fun _ =>
  (decodeFrame_cons .setProperty _ rfl).trans (by simp [decodeArgs, u16At])

theorem wireGetProperty (id : Half) : Statement (.wireGetProperty id) := fun _ =>
  (decodeFrame_cons .getProperty _ rfl).trans (by simp [decodeArgs, u16At])

theorem wireGetIntStatus : Statement .wireGetIntStatus := fun _ => by decide

theorem wireFmTuneFreq (freq : Half) : Statement (.wireFmTuneFreq freq) := fun _ =>
  (decodeFrame_cons .fmTuneFreq _ rfl).trans (by simp [decodeArgs, u16At, zeros, Config.tunePadFm])

theorem wireFmSeekStart (up : Bool) (wrap : Bool) : Statement (.wireFmSeekStart up wrap) := by
  cases up <;> cases wrap <;> exact fun _ => by decide

theorem wireFmTuneStatus (cancel : Bool) (intack : Bool) : Statement (.wireFmTuneStatus cancel intack) := by
  cases cancel <;> cases intack <;> exact fun _ => by decide

theorem wireFmRsqStatus (intack : Bool) : Statement (.wireFmRsqStatus intack) := by
  cases intack <;> exact fun _ => by decide

theorem wireAmTuneFreq (freq : Half) : Statement (.wireAmTuneFreq freq) := fun _ =>
  (decodeFrame_cons .amTuneFreq _ rfl).trans (by simp [decodeArgs, u16At, zeros, Config.tunePadAm])

theorem wireAmSeekStart (up : Bool) (wrap : Bool) : Statement (.wireAmSeekStart up wrap) := by
  cases up <;> cases wrap <;> exact fun _ => by decide

theorem wireAmTuneStatus (cancel : Bool) (intack : Bool) : Statement (.wireAmTuneStatus cancel intack) := by
  cases cancel <;> cases intack <;> exact fun _ => by decide

theorem wireAmRsqStatus (intack : Bool) : Statement (.wireAmRsqStatus intack) := by
  cases intack <;> exact fun _ => by decide

end Sys2Proof.Laws.Encoding
end

