-- ==== Sys2Proof/Laws/State.lean ====
section
/-! SUPPORT. One lemma per field per update: what each named update of the state leaves in each register. -/

namespace Sys2Proof.Machine

/-! ## emit -/

@[simp] theorem emit_addr (e : Event) (s : State) : (emit e s).addr = s.addr := rfl
@[simp] theorem emit_mode (e : Event) (s : State) : (emit e s).mode = s.mode := rfl
@[simp] theorem emit_ctsSeen (e : Event) (s : State) : (emit e s).ctsSeen = s.ctsSeen := rfl
@[simp] theorem emit_cfg (e : Event) (s : State) : (emit e s).cfg = s.cfg := rfl
@[simp] theorem emit_lastStatus (e : Event) (s : State) : (emit e s).lastStatus = s.lastStatus := rfl
@[simp] theorem emit_errSeen (e : Event) (s : State) : (emit e s).errSeen = s.errSeen := rfl
@[simp] theorem emit_resultCode (e : Event) (s : State) : (emit e s).resultCode = s.resultCode := rfl
@[simp] theorem emit_resultKind (e : Event) (s : State) : (emit e s).resultKind = s.resultKind := rfl
@[simp] theorem emit_resultLen (e : Event) (s : State) : (emit e s).resultLen = s.resultLen := rfl
@[simp] theorem emit_resultBytes (e : Event) (s : State) : (emit e s).resultBytes = s.resultBytes := rfl
@[simp] theorem emit_busy (e : Event) (s : State) : (emit e s).busy = s.busy := rfl
@[simp] theorem emit_curReq (e : Event) (s : State) : (emit e s).curReq = s.curReq := rfl
@[simp] theorem emit_seq (e : Event) (s : State) : (emit e s).seq = s.seq := rfl
@[simp] theorem emit_wkind (e : Event) (s : State) : (emit e s).wkind = s.wkind := rfl
@[simp] theorem emit_wstate (e : Event) (s : State) : (emit e s).wstate = s.wstate := rfl
@[simp] theorem emit_attempts (e : Event) (s : State) : (emit e s).attempts = s.attempts := rfl
@[simp] theorem emit_trace (e : Event) (s : State) : (emit e s).trace = s.trace ++ [e] := rfl
@[simp] theorem emit_port (e : Event) (s : State) : (emit e s).port = s.port := rfl
@[simp] theorem emit_bus (e : Event) (s : State) : (emit e s).bus = s.bus := rfl

/-! ## busWrite -/

@[simp] theorem busWrite_addr (a : Addr) (f : List Byte) (s : State) : (busWrite a f s).addr = s.addr := rfl
@[simp] theorem busWrite_mode (a : Addr) (f : List Byte) (s : State) : (busWrite a f s).mode = s.mode := rfl
@[simp] theorem busWrite_ctsSeen (a : Addr) (f : List Byte) (s : State) : (busWrite a f s).ctsSeen = s.ctsSeen := rfl
@[simp] theorem busWrite_cfg (a : Addr) (f : List Byte) (s : State) : (busWrite a f s).cfg = s.cfg := rfl
@[simp] theorem busWrite_lastStatus (a : Addr) (f : List Byte) (s : State) : (busWrite a f s).lastStatus = s.lastStatus := rfl
@[simp] theorem busWrite_errSeen (a : Addr) (f : List Byte) (s : State) : (busWrite a f s).errSeen = s.errSeen := rfl
@[simp] theorem busWrite_resultCode (a : Addr) (f : List Byte) (s : State) : (busWrite a f s).resultCode = s.resultCode := rfl
@[simp] theorem busWrite_resultKind (a : Addr) (f : List Byte) (s : State) : (busWrite a f s).resultKind = s.resultKind := rfl
@[simp] theorem busWrite_resultLen (a : Addr) (f : List Byte) (s : State) : (busWrite a f s).resultLen = s.resultLen := rfl
@[simp] theorem busWrite_resultBytes (a : Addr) (f : List Byte) (s : State) : (busWrite a f s).resultBytes = s.resultBytes := rfl
@[simp] theorem busWrite_busy (a : Addr) (f : List Byte) (s : State) : (busWrite a f s).busy = s.busy := rfl
@[simp] theorem busWrite_curReq (a : Addr) (f : List Byte) (s : State) : (busWrite a f s).curReq = s.curReq := rfl
@[simp] theorem busWrite_seq (a : Addr) (f : List Byte) (s : State) : (busWrite a f s).seq = s.seq := rfl
@[simp] theorem busWrite_wkind (a : Addr) (f : List Byte) (s : State) : (busWrite a f s).wkind = s.wkind := rfl
@[simp] theorem busWrite_wstate (a : Addr) (f : List Byte) (s : State) : (busWrite a f s).wstate = s.wstate := rfl
@[simp] theorem busWrite_attempts (a : Addr) (f : List Byte) (s : State) : (busWrite a f s).attempts = s.attempts := rfl
@[simp] theorem busWrite_trace (a : Addr) (f : List Byte) (s : State) : (busWrite a f s).trace = s.trace ++ [.write a f s.bus.nextWrite] := rfl
@[simp] theorem busWrite_port (a : Addr) (f : List Byte) (s : State) : (busWrite a f s).port = s.port := rfl
@[simp] theorem busWrite_bus (a : Addr) (f : List Byte) (s : State) : (busWrite a f s).bus = s.bus.afterWrite := rfl

/-! ## busRead -/

@[simp] theorem busRead_addr (a : Addr) (n : Nat) (s : State) : (busRead a n s).addr = s.addr := rfl
@[simp] theorem busRead_mode (a : Addr) (n : Nat) (s : State) : (busRead a n s).mode = s.mode := rfl
@[simp] theorem busRead_ctsSeen (a : Addr) (n : Nat) (s : State) : (busRead a n s).ctsSeen = s.ctsSeen := rfl
@[simp] theorem busRead_cfg (a : Addr) (n : Nat) (s : State) : (busRead a n s).cfg = s.cfg := rfl
@[simp] theorem busRead_lastStatus (a : Addr) (n : Nat) (s : State) : (busRead a n s).lastStatus = s.lastStatus := rfl
@[simp] theorem busRead_errSeen (a : Addr) (n : Nat) (s : State) : (busRead a n s).errSeen = s.errSeen := rfl
@[simp] theorem busRead_resultCode (a : Addr) (n : Nat) (s : State) : (busRead a n s).resultCode = s.resultCode := rfl
@[simp] theorem busRead_resultKind (a : Addr) (n : Nat) (s : State) : (busRead a n s).resultKind = s.resultKind := rfl
@[simp] theorem busRead_resultLen (a : Addr) (n : Nat) (s : State) : (busRead a n s).resultLen = s.resultLen := rfl
@[simp] theorem busRead_resultBytes (a : Addr) (n : Nat) (s : State) : (busRead a n s).resultBytes = s.resultBytes := rfl
@[simp] theorem busRead_busy (a : Addr) (n : Nat) (s : State) : (busRead a n s).busy = s.busy := rfl
@[simp] theorem busRead_curReq (a : Addr) (n : Nat) (s : State) : (busRead a n s).curReq = s.curReq := rfl
@[simp] theorem busRead_seq (a : Addr) (n : Nat) (s : State) : (busRead a n s).seq = s.seq := rfl
@[simp] theorem busRead_wkind (a : Addr) (n : Nat) (s : State) : (busRead a n s).wkind = s.wkind := rfl
@[simp] theorem busRead_wstate (a : Addr) (n : Nat) (s : State) : (busRead a n s).wstate = s.wstate := rfl
@[simp] theorem busRead_attempts (a : Addr) (n : Nat) (s : State) : (busRead a n s).attempts = s.attempts := rfl
@[simp] theorem busRead_trace (a : Addr) (n : Nat) (s : State) : (busRead a n s).trace = s.trace ++ [.read a n s.bus.nextRead] := rfl
@[simp] theorem busRead_port (a : Addr) (n : Nat) (s : State) : (busRead a n s).port = s.port := rfl
@[simp] theorem busRead_bus (a : Addr) (n : Nat) (s : State) : (busRead a n s).bus = s.bus.afterRead := rfl

/-! ## busScan -/

@[simp] theorem busScan_addr (s : State) : (busScan s).addr = s.addr := rfl
@[simp] theorem busScan_mode (s : State) : (busScan s).mode = s.mode := rfl
@[simp] theorem busScan_ctsSeen (s : State) : (busScan s).ctsSeen = s.ctsSeen := rfl
@[simp] theorem busScan_cfg (s : State) : (busScan s).cfg = s.cfg := rfl
@[simp] theorem busScan_lastStatus (s : State) : (busScan s).lastStatus = s.lastStatus := rfl
@[simp] theorem busScan_errSeen (s : State) : (busScan s).errSeen = s.errSeen := rfl
@[simp] theorem busScan_resultCode (s : State) : (busScan s).resultCode = s.resultCode := rfl
@[simp] theorem busScan_resultKind (s : State) : (busScan s).resultKind = s.resultKind := rfl
@[simp] theorem busScan_resultLen (s : State) : (busScan s).resultLen = s.resultLen := rfl
@[simp] theorem busScan_resultBytes (s : State) : (busScan s).resultBytes = s.resultBytes := rfl
@[simp] theorem busScan_busy (s : State) : (busScan s).busy = s.busy := rfl
@[simp] theorem busScan_curReq (s : State) : (busScan s).curReq = s.curReq := rfl
@[simp] theorem busScan_seq (s : State) : (busScan s).seq = s.seq := rfl
@[simp] theorem busScan_wkind (s : State) : (busScan s).wkind = s.wkind := rfl
@[simp] theorem busScan_wstate (s : State) : (busScan s).wstate = s.wstate := rfl
@[simp] theorem busScan_attempts (s : State) : (busScan s).attempts = s.attempts := rfl
@[simp] theorem busScan_trace (s : State) : (busScan s).trace = s.trace ++ [.scan (canonScan s.bus.nextScan)] := rfl
@[simp] theorem busScan_port (s : State) : (busScan s).port = s.port := rfl
@[simp] theorem busScan_bus (s : State) : (busScan s).bus = s.bus.afterScan := rfl

/-! ## delay -/

@[simp] theorem delay_addr (ms : Half) (s : State) : (delay ms s).addr = s.addr := rfl
@[simp] theorem delay_mode (ms : Half) (s : State) : (delay ms s).mode = s.mode := rfl
@[simp] theorem delay_ctsSeen (ms : Half) (s : State) : (delay ms s).ctsSeen = s.ctsSeen := rfl
@[simp] theorem delay_cfg (ms : Half) (s : State) : (delay ms s).cfg = s.cfg := rfl
@[simp] theorem delay_lastStatus (ms : Half) (s : State) : (delay ms s).lastStatus = s.lastStatus := rfl
@[simp] theorem delay_errSeen (ms : Half) (s : State) : (delay ms s).errSeen = s.errSeen := rfl
@[simp] theorem delay_resultCode (ms : Half) (s : State) : (delay ms s).resultCode = s.resultCode := rfl
@[simp] theorem delay_resultKind (ms : Half) (s : State) : (delay ms s).resultKind = s.resultKind := rfl
@[simp] theorem delay_resultLen (ms : Half) (s : State) : (delay ms s).resultLen = s.resultLen := rfl
@[simp] theorem delay_resultBytes (ms : Half) (s : State) : (delay ms s).resultBytes = s.resultBytes := rfl
@[simp] theorem delay_busy (ms : Half) (s : State) : (delay ms s).busy = s.busy := rfl
@[simp] theorem delay_curReq (ms : Half) (s : State) : (delay ms s).curReq = s.curReq := rfl
@[simp] theorem delay_seq (ms : Half) (s : State) : (delay ms s).seq = s.seq := rfl
@[simp] theorem delay_wkind (ms : Half) (s : State) : (delay ms s).wkind = s.wkind := rfl
@[simp] theorem delay_wstate (ms : Half) (s : State) : (delay ms s).wstate = s.wstate := rfl
@[simp] theorem delay_attempts (ms : Half) (s : State) : (delay ms s).attempts = s.attempts := rfl
@[simp] theorem delay_trace (ms : Half) (s : State) : (delay ms s).trace = s.trace ++ [.delay ms.toNat] := rfl
@[simp] theorem delay_port (ms : Half) (s : State) : (delay ms s).port = s.port := rfl
@[simp] theorem delay_bus (ms : Half) (s : State) : (delay ms s).bus = s.bus := rfl

/-! ## finish -/

@[simp] theorem finish_addr (c : ResultCode) (s : State) : (finish c s).addr = s.addr := rfl
@[simp] theorem finish_mode (c : ResultCode) (s : State) : (finish c s).mode = s.mode := rfl
@[simp] theorem finish_ctsSeen (c : ResultCode) (s : State) : (finish c s).ctsSeen = s.ctsSeen := rfl
@[simp] theorem finish_cfg (c : ResultCode) (s : State) : (finish c s).cfg = s.cfg := rfl
@[simp] theorem finish_lastStatus (c : ResultCode) (s : State) : (finish c s).lastStatus = s.lastStatus := rfl
@[simp] theorem finish_errSeen (c : ResultCode) (s : State) : (finish c s).errSeen = s.errSeen := rfl
@[simp] theorem finish_resultCode (c : ResultCode) (s : State) : (finish c s).resultCode = c := rfl
@[simp] theorem finish_resultKind (c : ResultCode) (s : State) : (finish c s).resultKind = s.resultKind := rfl
@[simp] theorem finish_resultLen (c : ResultCode) (s : State) : (finish c s).resultLen = s.resultLen := rfl
@[simp] theorem finish_resultBytes (c : ResultCode) (s : State) : (finish c s).resultBytes = s.resultBytes := rfl
@[simp] theorem finish_busy (c : ResultCode) (s : State) : (finish c s).busy = false := rfl
@[simp] theorem finish_curReq (c : ResultCode) (s : State) : (finish c s).curReq = s.curReq := rfl
@[simp] theorem finish_seq (c : ResultCode) (s : State) : (finish c s).seq = [] := rfl
@[simp] theorem finish_wkind (c : ResultCode) (s : State) : (finish c s).wkind = s.wkind := rfl
@[simp] theorem finish_wstate (c : ResultCode) (s : State) : (finish c s).wstate = .idle := rfl
@[simp] theorem finish_attempts (c : ResultCode) (s : State) : (finish c s).attempts = s.attempts := rfl
@[simp] theorem finish_trace (c : ResultCode) (s : State) : (finish c s).trace = s.trace := rfl
@[simp] theorem finish_port (c : ResultCode) (s : State) : (finish c s).port = s.port := rfl
@[simp] theorem finish_bus (c : ResultCode) (s : State) : (finish c s).bus = s.bus := rfl

/-! ## latch -/

@[simp] theorem latch_addr (w : ReqWord) (s : State) : (latch w s).addr = s.addr := rfl
@[simp] theorem latch_mode (w : ReqWord) (s : State) : (latch w s).mode = s.mode := rfl
@[simp] theorem latch_ctsSeen (w : ReqWord) (s : State) : (latch w s).ctsSeen = s.ctsSeen := rfl
@[simp] theorem latch_cfg (w : ReqWord) (s : State) : (latch w s).cfg = s.cfg := rfl
@[simp] theorem latch_lastStatus (w : ReqWord) (s : State) : (latch w s).lastStatus = s.lastStatus := rfl
@[simp] theorem latch_errSeen (w : ReqWord) (s : State) : (latch w s).errSeen = false := rfl
@[simp] theorem latch_resultCode (w : ReqWord) (s : State) : (latch w s).resultCode = .none := rfl
@[simp] theorem latch_resultKind (w : ReqWord) (s : State) : (latch w s).resultKind = .none := rfl
@[simp] theorem latch_resultLen (w : ReqWord) (s : State) : (latch w s).resultLen = 0 := rfl
@[simp] theorem latch_resultBytes (w : ReqWord) (s : State) : (latch w s).resultBytes = Vector.replicate 14 0x00 := rfl
@[simp] theorem latch_busy (w : ReqWord) (s : State) : (latch w s).busy = true := rfl
@[simp] theorem latch_curReq (w : ReqWord) (s : State) : (latch w s).curReq = w := rfl
@[simp] theorem latch_seq (w : ReqWord) (s : State) : (latch w s).seq = s.seq := rfl
@[simp] theorem latch_wkind (w : ReqWord) (s : State) : (latch w s).wkind = s.wkind := rfl
@[simp] theorem latch_wstate (w : ReqWord) (s : State) : (latch w s).wstate = s.wstate := rfl
@[simp] theorem latch_attempts (w : ReqWord) (s : State) : (latch w s).attempts = s.attempts := rfl
@[simp] theorem latch_trace (w : ReqWord) (s : State) : (latch w s).trace = s.trace := rfl
@[simp] theorem latch_port (w : ReqWord) (s : State) : (latch w s).port = s.port := rfl
@[simp] theorem latch_bus (w : ReqWord) (s : State) : (latch w s).bus = s.bus := rfl

/-! ## hold -/

@[simp] theorem hold_addr (w : ReqWord) (s : State) : (hold w s).addr = s.addr := rfl
@[simp] theorem hold_mode (w : ReqWord) (s : State) : (hold w s).mode = s.mode := rfl
@[simp] theorem hold_ctsSeen (w : ReqWord) (s : State) : (hold w s).ctsSeen = s.ctsSeen := rfl
@[simp] theorem hold_cfg (w : ReqWord) (s : State) : (hold w s).cfg = s.cfg := rfl
@[simp] theorem hold_lastStatus (w : ReqWord) (s : State) : (hold w s).lastStatus = s.lastStatus := rfl
@[simp] theorem hold_errSeen (w : ReqWord) (s : State) : (hold w s).errSeen = s.errSeen := rfl
@[simp] theorem hold_resultCode (w : ReqWord) (s : State) : (hold w s).resultCode = s.resultCode := rfl
@[simp] theorem hold_resultKind (w : ReqWord) (s : State) : (hold w s).resultKind = s.resultKind := rfl
@[simp] theorem hold_resultLen (w : ReqWord) (s : State) : (hold w s).resultLen = s.resultLen := rfl
@[simp] theorem hold_resultBytes (w : ReqWord) (s : State) : (hold w s).resultBytes = s.resultBytes := rfl
@[simp] theorem hold_busy (w : ReqWord) (s : State) : (hold w s).busy = s.busy := rfl
@[simp] theorem hold_curReq (w : ReqWord) (s : State) : (hold w s).curReq = s.curReq := rfl
@[simp] theorem hold_seq (w : ReqWord) (s : State) : (hold w s).seq = s.seq := rfl
@[simp] theorem hold_wkind (w : ReqWord) (s : State) : (hold w s).wkind = s.wkind := rfl
@[simp] theorem hold_wstate (w : ReqWord) (s : State) : (hold w s).wstate = s.wstate := rfl
@[simp] theorem hold_attempts (w : ReqWord) (s : State) : (hold w s).attempts = s.attempts := rfl
@[simp] theorem hold_trace (w : ReqWord) (s : State) : (hold w s).trace = s.trace := rfl
@[simp] theorem hold_port (w : ReqWord) (s : State) : (hold w s).port = w :: s.port := rfl
@[simp] theorem hold_bus (w : ReqWord) (s : State) : (hold w s).bus = s.bus := rfl

/-! ## observe -/

@[simp] theorem observe_addr (b : Byte) (s : State) : (observe b s).addr = s.addr := rfl
@[simp] theorem observe_mode (b : Byte) (s : State) : (observe b s).mode = s.mode := rfl
@[simp] theorem observe_ctsSeen (b : Byte) (s : State) : (observe b s).ctsSeen = statusCts b := rfl
@[simp] theorem observe_cfg (b : Byte) (s : State) : (observe b s).cfg = s.cfg := rfl
@[simp] theorem observe_lastStatus (b : Byte) (s : State) : (observe b s).lastStatus = b := rfl
@[simp] theorem observe_errSeen (b : Byte) (s : State) : (observe b s).errSeen = (s.errSeen || errCounts b) := rfl
@[simp] theorem observe_resultCode (b : Byte) (s : State) : (observe b s).resultCode = s.resultCode := rfl
@[simp] theorem observe_resultKind (b : Byte) (s : State) : (observe b s).resultKind = s.resultKind := rfl
@[simp] theorem observe_resultLen (b : Byte) (s : State) : (observe b s).resultLen = s.resultLen := rfl
@[simp] theorem observe_resultBytes (b : Byte) (s : State) : (observe b s).resultBytes = s.resultBytes := rfl
@[simp] theorem observe_busy (b : Byte) (s : State) : (observe b s).busy = s.busy := rfl
@[simp] theorem observe_curReq (b : Byte) (s : State) : (observe b s).curReq = s.curReq := rfl
@[simp] theorem observe_seq (b : Byte) (s : State) : (observe b s).seq = s.seq := rfl
@[simp] theorem observe_wkind (b : Byte) (s : State) : (observe b s).wkind = s.wkind := rfl
@[simp] theorem observe_wstate (b : Byte) (s : State) : (observe b s).wstate = s.wstate := rfl
@[simp] theorem observe_attempts (b : Byte) (s : State) : (observe b s).attempts = s.attempts := rfl
@[simp] theorem observe_trace (b : Byte) (s : State) : (observe b s).trace = s.trace := rfl
@[simp] theorem observe_port (b : Byte) (s : State) : (observe b s).port = s.port := rfl
@[simp] theorem observe_bus (b : Byte) (s : State) : (observe b s).bus = s.bus := rfl

/-! ## storeRecord -/

@[simp] theorem storeRecord_addr (n : Nat) (k : Kind) (r : List Byte) (s : State) : (storeRecord n k r s).addr = s.addr := rfl
@[simp] theorem storeRecord_mode (n : Nat) (k : Kind) (r : List Byte) (s : State) : (storeRecord n k r s).mode = s.mode := rfl
@[simp] theorem storeRecord_ctsSeen (n : Nat) (k : Kind) (r : List Byte) (s : State) : (storeRecord n k r s).ctsSeen = statusCts (byteAt r 0) := rfl
@[simp] theorem storeRecord_cfg (n : Nat) (k : Kind) (r : List Byte) (s : State) : (storeRecord n k r s).cfg = s.cfg := rfl
@[simp] theorem storeRecord_lastStatus (n : Nat) (k : Kind) (r : List Byte) (s : State) : (storeRecord n k r s).lastStatus = byteAt r 0 := rfl
@[simp] theorem storeRecord_errSeen (n : Nat) (k : Kind) (r : List Byte) (s : State) : (storeRecord n k r s).errSeen = (s.errSeen || errCounts (byteAt r 0)) := rfl
@[simp] theorem storeRecord_resultCode (n : Nat) (k : Kind) (r : List Byte) (s : State) : (storeRecord n k r s).resultCode = s.resultCode := rfl
@[simp] theorem storeRecord_resultKind (n : Nat) (k : Kind) (r : List Byte) (s : State) : (storeRecord n k r s).resultKind = k := rfl
@[simp] theorem storeRecord_resultLen (n : Nat) (k : Kind) (r : List Byte) (s : State) : (storeRecord n k r s).resultLen = BitVec.ofNat 5 n := rfl
@[simp] theorem storeRecord_resultBytes (n : Nat) (k : Kind) (r : List Byte) (s : State) : (storeRecord n k r s).resultBytes = padRecord r := rfl
@[simp] theorem storeRecord_busy (n : Nat) (k : Kind) (r : List Byte) (s : State) : (storeRecord n k r s).busy = s.busy := rfl
@[simp] theorem storeRecord_curReq (n : Nat) (k : Kind) (r : List Byte) (s : State) : (storeRecord n k r s).curReq = s.curReq := rfl
@[simp] theorem storeRecord_seq (n : Nat) (k : Kind) (r : List Byte) (s : State) : (storeRecord n k r s).seq = s.seq := rfl
@[simp] theorem storeRecord_wkind (n : Nat) (k : Kind) (r : List Byte) (s : State) : (storeRecord n k r s).wkind = s.wkind := rfl
@[simp] theorem storeRecord_wstate (n : Nat) (k : Kind) (r : List Byte) (s : State) : (storeRecord n k r s).wstate = s.wstate := rfl
@[simp] theorem storeRecord_attempts (n : Nat) (k : Kind) (r : List Byte) (s : State) : (storeRecord n k r s).attempts = s.attempts := rfl
@[simp] theorem storeRecord_trace (n : Nat) (k : Kind) (r : List Byte) (s : State) : (storeRecord n k r s).trace = s.trace := rfl
@[simp] theorem storeRecord_port (n : Nat) (k : Kind) (r : List Byte) (s : State) : (storeRecord n k r s).port = s.port := rfl
@[simp] theorem storeRecord_bus (n : Nat) (k : Kind) (r : List Byte) (s : State) : (storeRecord n k r s).bus = s.bus := rfl

/-! ## invMode -/

@[simp] theorem invMode_addr (s : State) : (invMode s).addr = s.addr := rfl
@[simp] theorem invMode_mode (s : State) : (invMode s).mode = none := rfl
@[simp] theorem invMode_ctsSeen (s : State) : (invMode s).ctsSeen = s.ctsSeen := rfl
@[simp] theorem invMode_cfg (s : State) : (invMode s).cfg = s.cfg := rfl
@[simp] theorem invMode_lastStatus (s : State) : (invMode s).lastStatus = s.lastStatus := rfl
@[simp] theorem invMode_errSeen (s : State) : (invMode s).errSeen = s.errSeen := rfl
@[simp] theorem invMode_resultCode (s : State) : (invMode s).resultCode = s.resultCode := rfl
@[simp] theorem invMode_resultKind (s : State) : (invMode s).resultKind = s.resultKind := rfl
@[simp] theorem invMode_resultLen (s : State) : (invMode s).resultLen = s.resultLen := rfl
@[simp] theorem invMode_resultBytes (s : State) : (invMode s).resultBytes = s.resultBytes := rfl
@[simp] theorem invMode_busy (s : State) : (invMode s).busy = s.busy := rfl
@[simp] theorem invMode_curReq (s : State) : (invMode s).curReq = s.curReq := rfl
@[simp] theorem invMode_seq (s : State) : (invMode s).seq = s.seq := rfl
@[simp] theorem invMode_wkind (s : State) : (invMode s).wkind = s.wkind := rfl
@[simp] theorem invMode_wstate (s : State) : (invMode s).wstate = s.wstate := rfl
@[simp] theorem invMode_attempts (s : State) : (invMode s).attempts = s.attempts := rfl
@[simp] theorem invMode_trace (s : State) : (invMode s).trace = s.trace := rfl
@[simp] theorem invMode_port (s : State) : (invMode s).port = s.port := rfl
@[simp] theorem invMode_bus (s : State) : (invMode s).bus = s.bus := rfl

/-! ## commit -/

@[simp] theorem commit_addr (m : Mode) (s : State) : (commit m s).addr = s.addr := rfl
@[simp] theorem commit_mode (m : Mode) (s : State) : (commit m s).mode = some m := rfl
@[simp] theorem commit_ctsSeen (m : Mode) (s : State) : (commit m s).ctsSeen = s.ctsSeen := rfl
@[simp] theorem commit_cfg (m : Mode) (s : State) : (commit m s).cfg = s.cfg := rfl
@[simp] theorem commit_lastStatus (m : Mode) (s : State) : (commit m s).lastStatus = s.lastStatus := rfl
@[simp] theorem commit_errSeen (m : Mode) (s : State) : (commit m s).errSeen = s.errSeen := rfl
@[simp] theorem commit_resultCode (m : Mode) (s : State) : (commit m s).resultCode = s.resultCode := rfl
@[simp] theorem commit_resultKind (m : Mode) (s : State) : (commit m s).resultKind = s.resultKind := rfl
@[simp] theorem commit_resultLen (m : Mode) (s : State) : (commit m s).resultLen = s.resultLen := rfl
@[simp] theorem commit_resultBytes (m : Mode) (s : State) : (commit m s).resultBytes = s.resultBytes := rfl
@[simp] theorem commit_busy (m : Mode) (s : State) : (commit m s).busy = s.busy := rfl
@[simp] theorem commit_curReq (m : Mode) (s : State) : (commit m s).curReq = s.curReq := rfl
@[simp] theorem commit_seq (m : Mode) (s : State) : (commit m s).seq = s.seq := rfl
@[simp] theorem commit_wkind (m : Mode) (s : State) : (commit m s).wkind = s.wkind := rfl
@[simp] theorem commit_wstate (m : Mode) (s : State) : (commit m s).wstate = s.wstate := rfl
@[simp] theorem commit_attempts (m : Mode) (s : State) : (commit m s).attempts = s.attempts := rfl
@[simp] theorem commit_trace (m : Mode) (s : State) : (commit m s).trace = s.trace := rfl
@[simp] theorem commit_port (m : Mode) (s : State) : (commit m s).port = s.port := rfl
@[simp] theorem commit_bus (m : Mode) (s : State) : (commit m s).bus = s.bus := rfl

/-! ## cfgWrite -/

@[simp] theorem cfgWrite_addr (r : CfgReg) (v : Half) (s : State) : (cfgWrite r v s).addr = s.addr := rfl
@[simp] theorem cfgWrite_mode (r : CfgReg) (v : Half) (s : State) : (cfgWrite r v s).mode = s.mode := rfl
@[simp] theorem cfgWrite_ctsSeen (r : CfgReg) (v : Half) (s : State) : (cfgWrite r v s).ctsSeen = s.ctsSeen := rfl
@[simp] theorem cfgWrite_cfg (r : CfgReg) (v : Half) (s : State) : (cfgWrite r v s).cfg = s.cfg.set r v := rfl
@[simp] theorem cfgWrite_lastStatus (r : CfgReg) (v : Half) (s : State) : (cfgWrite r v s).lastStatus = s.lastStatus := rfl
@[simp] theorem cfgWrite_errSeen (r : CfgReg) (v : Half) (s : State) : (cfgWrite r v s).errSeen = s.errSeen := rfl
@[simp] theorem cfgWrite_resultCode (r : CfgReg) (v : Half) (s : State) : (cfgWrite r v s).resultCode = s.resultCode := rfl
@[simp] theorem cfgWrite_resultKind (r : CfgReg) (v : Half) (s : State) : (cfgWrite r v s).resultKind = s.resultKind := rfl
@[simp] theorem cfgWrite_resultLen (r : CfgReg) (v : Half) (s : State) : (cfgWrite r v s).resultLen = s.resultLen := rfl
@[simp] theorem cfgWrite_resultBytes (r : CfgReg) (v : Half) (s : State) : (cfgWrite r v s).resultBytes = s.resultBytes := rfl
@[simp] theorem cfgWrite_busy (r : CfgReg) (v : Half) (s : State) : (cfgWrite r v s).busy = s.busy := rfl
@[simp] theorem cfgWrite_curReq (r : CfgReg) (v : Half) (s : State) : (cfgWrite r v s).curReq = s.curReq := rfl
@[simp] theorem cfgWrite_seq (r : CfgReg) (v : Half) (s : State) : (cfgWrite r v s).seq = s.seq := rfl
@[simp] theorem cfgWrite_wkind (r : CfgReg) (v : Half) (s : State) : (cfgWrite r v s).wkind = s.wkind := rfl
@[simp] theorem cfgWrite_wstate (r : CfgReg) (v : Half) (s : State) : (cfgWrite r v s).wstate = s.wstate := rfl
@[simp] theorem cfgWrite_attempts (r : CfgReg) (v : Half) (s : State) : (cfgWrite r v s).attempts = s.attempts := rfl
@[simp] theorem cfgWrite_trace (r : CfgReg) (v : Half) (s : State) : (cfgWrite r v s).trace = s.trace := rfl
@[simp] theorem cfgWrite_port (r : CfgReg) (v : Half) (s : State) : (cfgWrite r v s).port = s.port := rfl
@[simp] theorem cfgWrite_bus (r : CfgReg) (v : Half) (s : State) : (cfgWrite r v s).bus = s.bus := rfl

/-! ## noteReset -/

@[simp] theorem noteReset_addr (s : State) : (noteReset s).addr = s.addr := rfl
@[simp] theorem noteReset_mode (s : State) : (noteReset s).mode = none := rfl
@[simp] theorem noteReset_ctsSeen (s : State) : (noteReset s).ctsSeen = false := rfl
@[simp] theorem noteReset_cfg (s : State) : (noteReset s).cfg = s.cfg := rfl
@[simp] theorem noteReset_lastStatus (s : State) : (noteReset s).lastStatus = s.lastStatus := rfl
@[simp] theorem noteReset_errSeen (s : State) : (noteReset s).errSeen = s.errSeen := rfl
@[simp] theorem noteReset_resultCode (s : State) : (noteReset s).resultCode = s.resultCode := rfl
@[simp] theorem noteReset_resultKind (s : State) : (noteReset s).resultKind = s.resultKind := rfl
@[simp] theorem noteReset_resultLen (s : State) : (noteReset s).resultLen = s.resultLen := rfl
@[simp] theorem noteReset_resultBytes (s : State) : (noteReset s).resultBytes = s.resultBytes := rfl
@[simp] theorem noteReset_busy (s : State) : (noteReset s).busy = s.busy := rfl
@[simp] theorem noteReset_curReq (s : State) : (noteReset s).curReq = s.curReq := rfl
@[simp] theorem noteReset_seq (s : State) : (noteReset s).seq = s.seq := rfl
@[simp] theorem noteReset_wkind (s : State) : (noteReset s).wkind = s.wkind := rfl
@[simp] theorem noteReset_wstate (s : State) : (noteReset s).wstate = s.wstate := rfl
@[simp] theorem noteReset_attempts (s : State) : (noteReset s).attempts = s.attempts := rfl
@[simp] theorem noteReset_trace (s : State) : (noteReset s).trace = s.trace := rfl
@[simp] theorem noteReset_port (s : State) : (noteReset s).port = s.port := rfl
@[simp] theorem noteReset_bus (s : State) : (noteReset s).bus = s.bus := rfl

/-! ## complete -/

@[simp] theorem complete_addr (s : State) : (complete s).addr = s.addr := rfl
@[simp] theorem complete_mode (s : State) : (complete s).mode = s.mode := rfl
@[simp] theorem complete_ctsSeen (s : State) : (complete s).ctsSeen = s.ctsSeen := rfl
@[simp] theorem complete_cfg (s : State) : (complete s).cfg = s.cfg := rfl
@[simp] theorem complete_lastStatus (s : State) : (complete s).lastStatus = s.lastStatus := rfl
@[simp] theorem complete_errSeen (s : State) : (complete s).errSeen = s.errSeen := rfl
@[simp] theorem complete_resultCode (s : State) : (complete s).resultCode = endCode s.errSeen := rfl
@[simp] theorem complete_resultKind (s : State) : (complete s).resultKind = s.resultKind := rfl
@[simp] theorem complete_resultLen (s : State) : (complete s).resultLen = s.resultLen := rfl
@[simp] theorem complete_resultBytes (s : State) : (complete s).resultBytes = s.resultBytes := rfl
@[simp] theorem complete_busy (s : State) : (complete s).busy = false := rfl
@[simp] theorem complete_curReq (s : State) : (complete s).curReq = s.curReq := rfl
@[simp] theorem complete_seq (s : State) : (complete s).seq = [] := rfl
@[simp] theorem complete_wkind (s : State) : (complete s).wkind = s.wkind := rfl
@[simp] theorem complete_wstate (s : State) : (complete s).wstate = .idle := rfl
@[simp] theorem complete_attempts (s : State) : (complete s).attempts = s.attempts := rfl
@[simp] theorem complete_trace (s : State) : (complete s).trace = s.trace := rfl
@[simp] theorem complete_port (s : State) : (complete s).port = s.port := rfl
@[simp] theorem complete_bus (s : State) : (complete s).bus = s.bus := rfl

/-! ## CFG: a write is read back, and changes no other register (R25) -/

@[simp] theorem Cfg.get_set_self (c : Cfg) (r : CfgReg) (v : Half) : (c.set r v).get r = v := by
  cases r <;> rfl

theorem Cfg.get_set_other (c : Cfg) {r q : CfgReg} (v : Half) (h : q ≠ r) : (c.set r v).get q = c.get q := by
  cases r <;> cases q <;> first | rfl | exact absurd rfl h

end Sys2Proof.Machine
end

