-- ==== Sys2Proof/Laws/Ops.lean ====
section
/-! SUPPORT. One lemma per shared operation: everything it can do, said once.  Later proofs cite these and do not unfold
the operations. -/

namespace Sys2Proof.Machine

/-! ## Bus micro-operations -/

/-- WR without an address ends NO_ADDRESS; with one it writes once, clears CTS_SEEN, and ends BUS_ERROR or goes on. -/
theorem wr_cases (f : List Byte) (s : State) :
    (s.addr = none ∧ wr f s = finish .noAddress s) ∨
    ∃ a, s.addr = some a ∧
      ((s.bus.nextWrite = .ok ∧ wr f s = { busWrite a f s with ctsSeen := false }) ∨
       (s.bus.nextWrite = .busErr ∧ wr f s = finish .busError { busWrite a f s with ctsSeen := false })) := by
  unfold wr
  cases ha : s.addr with
  | none => exact .inl ⟨rfl, rfl⟩
  | some a => cases hw : s.bus.nextWrite <;> simp

/-- RD: NO_ADDRESS without an address; else one read, then BUS_ERROR, SHORT_READ or LONG_READ where its answer has not the
bytes asked for, or the record stored where it has. -/
theorem rd_cases (n : Nat) (k : Kind) (s : State) :
    (s.addr = none ∧ rd n k s = finish .noAddress s) ∨
    ∃ a, s.addr = some a ∧
      ((∃ c, (c = .busError ∨ c = .shortRead ∨ c = .longRead) ∧ (∀ r, s.bus.nextRead = .bytes r → r.length ≠ n) ∧
         rd n k s = finish c (busRead a n s)) ∨
       ∃ r, s.bus.nextRead = .bytes r ∧ r.length = n ∧ rd n k s = storeRecord n k r (busRead a n s)) := by
  unfold rd
  cases ha : s.addr with
  | none => exact .inl ⟨rfl, rfl⟩
  | some a =>
    refine .inr ⟨a, rfl, ?_⟩
    cases hr : s.bus.nextRead with
    | busErr => exact .inl ⟨_, .inl rfl, by simp, rfl⟩
    | bytes r =>
      by_cases h1 : r.length < n
      · exact .inl ⟨.shortRead, .inr (.inl rfl), by rintro _ ⟨⟩; omega, by simp [h1]⟩
      · by_cases h2 : n < r.length
        · exact .inl ⟨.longRead, .inr (.inr rfl), by rintro _ ⟨⟩; omega, by simp [h1, h2]⟩
        · exact .inr ⟨r, rfl, by omega, by simp [h1, h2]⟩

/-- RESOLVE_ADDRESS: nothing where the address is known; else one scan, then BUS_ERROR, DEVICE_NOT_FOUND or a legal
address. -/
theorem resolve_cases (s : State) (p : Params := Params.spec) :
    ((∃ a, s.addr = some a) ∧ resolve s p = s) ∨
    (s.addr = none ∧
      ((∃ c, (c = .busError ∨ c = .deviceNotFound) ∧ resolve s p = finish c (busScan s)) ∨
       ∃ l a, s.bus.nextScan = .found l ∧ pickAddr l p = some a ∧ resolve s p = { busScan s with addr := some a })) := by
  unfold resolve
  cases ha : s.addr with
  | some a => exact .inl ⟨⟨a, rfl⟩, rfl⟩
  | none =>
    refine .inr ⟨rfl, ?_⟩
    cases hs : s.bus.nextScan with
    | busErr => exact .inl ⟨_, .inl rfl, rfl⟩
    | found l =>
      cases hp : pickAddr l p with
      | none => exact .inl ⟨.deviceNotFound, .inr rfl, by simp [hp]⟩
      | some a => exact .inr ⟨l, a, rfl, hp, by simp [hp]⟩

/-- The address a scan resolves to is a legal one (R57, R191). -/
theorem pickAddr_legal {l : List Addr} {a : Addr} (h : pickAddr l = some a) : Config.legalAddrs.contains a = true := by
  simpa using List.mem_of_find?_eq_some h

/-! ## The ready-wait FSM -/

/-- A poll of one byte: success, TIMEOUT at the limit, or another round after a sleep. -/
theorem polled_cases (b : Byte) (s : State) (p : Params := Params.spec) :
    (waitDone s.wkind b p = true ∧
      polled b s p = { observe b { s with attempts := s.attempts + 1 } with wstate := .idle }) ∨
    (waitDone s.wkind b p = false ∧ waitLimit s.wkind s.cfg ≤ s.attempts + 1 ∧
      polled b s p = finish .timeout (observe b { s with attempts := s.attempts + 1 })) ∨
    (waitDone s.wkind b p = false ∧ s.attempts + 1 < waitLimit s.wkind s.cfg ∧
      polled b s p = { observe b { s with attempts := s.attempts + 1 } with wstate := .sleep }) := by
  unfold polled
  by_cases hd : waitDone s.wkind b p = true
  · exact .inl ⟨hd, by simp [hd]⟩
  · have hd' : waitDone s.wkind b p = false := by simpa using hd
    by_cases hl : waitLimit s.wkind s.cfg ≤ s.attempts + 1
    · exact .inr (.inl ⟨hd', hl, (if_neg hd).trans (if_pos hl)⟩)
    · exact .inr (.inr ⟨hd', by simpa using hl, (if_neg hd).trans (if_neg hl)⟩)

/-- A poll: NO_ADDRESS without an address; else one read of one byte, then an error where its answer is not one byte, or
the byte polled. -/
theorem poll_cases (s : State) (p : Params := Params.spec) :
    (s.addr = none ∧ poll s p = finish .noAddress s) ∨
    ∃ a, s.addr = some a ∧
      ((∃ c, (c = .busError ∨ c = .shortRead ∨ c = .longRead) ∧ (∀ r, s.bus.nextRead = .bytes r → r.length ≠ 1) ∧
         poll s p = finish c (busRead a 1 s)) ∨
       ∃ b, s.bus.nextRead = .bytes [b] ∧ poll s p = polled b (busRead a 1 s) p) := by
  unfold poll
  cases ha : s.addr with
  | none => exact .inl ⟨rfl, rfl⟩
  | some a =>
    refine .inr ⟨a, rfl, ?_⟩
    match hr : s.bus.nextRead with
    | .busErr => exact .inl ⟨_, .inl rfl, by simp, rfl⟩
    | .bytes [] => exact .inl ⟨.shortRead, .inr (.inl rfl), by simp, rfl⟩
    | .bytes [b] => exact .inr ⟨b, rfl, rfl⟩
    | .bytes (_ :: _ :: _) => exact .inl ⟨.longRead, .inr (.inr rfl), by simp, rfl⟩

/-- The first event of a wait, or the event after a sleep: a poll, or in an STC wait that has seen CTS the frame
GET_INT_STATUS. -/
theorem pollStep_cases (s : State) (p : Params := Params.spec) :
    pollStep s p = poll s p ∨ (s.wkind = .stc ∧ s.ctsSeen = true ∧ pollStep s p = wr (getIntStatusFrame p) s) := by
  unfold pollStep
  cases s.wkind with
  | cts => exact .inl rfl
  | stc => cases s.ctsSeen <;> simp

/-- Everything one event of a wait can do: end the request, succeed, time out, sleep, or send GET_INT_STATUS. -/
theorem pollStep_effects (s : State) (p : Params := Params.spec) :
    (s.addr = none ∧ pollStep s p = finish .noAddress s) ∨
    ∃ a, s.addr = some a ∧
      ((∃ c, (c = .busError ∨ c = .shortRead ∨ c = .longRead) ∧ (∀ r, s.bus.nextRead = .bytes r → r.length ≠ 1) ∧
         pollStep s p = finish c (busRead a 1 s)) ∨
       (∃ b, s.bus.nextRead = .bytes [b] ∧ waitDone s.wkind b p = true ∧
         pollStep s p = { observe b { busRead a 1 s with attempts := s.attempts + 1 } with wstate := .idle }) ∨
       (∃ b, s.bus.nextRead = .bytes [b] ∧ waitDone s.wkind b p = false ∧
         waitLimit s.wkind s.cfg ≤ s.attempts + 1 ∧
         pollStep s p = finish .timeout (observe b { busRead a 1 s with attempts := s.attempts + 1 })) ∨
       (∃ b, s.bus.nextRead = .bytes [b] ∧ waitDone s.wkind b p = false ∧
         s.attempts + 1 < waitLimit s.wkind s.cfg ∧
         pollStep s p = { observe b { busRead a 1 s with attempts := s.attempts + 1 } with wstate := .sleep }) ∨
       (s.wkind = .stc ∧ s.ctsSeen = true ∧
         pollStep s p = { busWrite a (getIntStatusFrame p) s with ctsSeen := false }) ∨
       (s.wkind = .stc ∧ s.ctsSeen = true ∧
         pollStep s p = finish .busError { busWrite a (getIntStatusFrame p) s with ctsSeen := false })) := by
  rcases pollStep_cases s p with e | ⟨hk, hc, e⟩ <;> rw [e]
  · rcases poll_cases s p with ⟨h, e⟩ | ⟨a, h, ⟨c, hc, hn, e⟩ | ⟨b, hr, e⟩⟩ <;> rw [e]
    · exact .inl ⟨h, rfl⟩
    · exact .inr ⟨a, h, .inl ⟨c, hc, hn, rfl⟩⟩
    · rcases polled_cases b (busRead a 1 s) p with ⟨hd, e⟩ | ⟨hd, hl, e⟩ | ⟨hd, hl, e⟩ <;> rw [e]
      · exact .inr ⟨a, h, .inr (.inl ⟨b, hr, hd, rfl⟩)⟩
      · exact .inr ⟨a, h, .inr (.inr (.inl ⟨b, hr, hd, hl, rfl⟩))⟩
      · exact .inr ⟨a, h, .inr (.inr (.inr (.inl ⟨b, hr, hd, hl, rfl⟩)))⟩
  · rcases wr_cases (getIntStatusFrame p) s with ⟨h, e⟩ | ⟨a, h, ⟨-, e⟩ | ⟨-, e⟩⟩ <;> rw [e]
    · exact .inl ⟨h, rfl⟩
    · exact .inr ⟨a, h, .inr (.inr (.inr (.inr (.inl ⟨hk, hc, rfl⟩))))⟩
    · exact .inr ⟨a, h, .inr (.inr (.inr (.inr (.inr ⟨hk, hc, rfl⟩))))⟩

/-! ## Acceptance -/

/-- Every program that acceptance can put into SEQ: legal micro-operations, and no frame before CTS is seen. -/
def ProgramOk (p : List MicroOp) : Prop := (∀ m, m ∈ p → m.legal = true) ∧ seqGuarded false p = true

theorem needAddr_ok {s : State} {c : Except ResultCode (List MicroOp)} {p : List MicroOp}
    (h : needAddr s c = .ok p) : c = .ok p := by
  unfold needAddr at h; split at h <;> simp_all

theorem needMode_ok {s : State} {c : Mode → Except ResultCode (List MicroOp)} {p : List MicroOp}
    (h : needMode s c = .ok p) : ∃ m, c m = .ok p := by
  unfold needMode at h
  cases hm : s.mode with
  | none => simp [hm] at h
  | some m => exact ⟨m, by simpa [hm] using h⟩

theorem needLegal_ok {ok : Bool} {q p : List MicroOp} (h : needLegal ok q = .ok p) : q = p := by
  unfold needLegal at h; split at h <;> simp_all

/-- A check never gives the code NONE. -/
def CodeOk (c : Except ResultCode (List MicroOp)) : Prop := ∀ e, c = .error e → e ≠ .none

theorem frameOk_of_encode {i : Instr} {f : List Byte} (h : decodeFrame f = .ok i) (hw : i.wellFormed = true) :
    frameOk f = true := by
  simp [frameOk, h, hw]

@[simp] theorem frameOk_powerUp (m : Mode) (o : Half) : frameOk (powerUpFrame m o) = true := by
  unfold powerUpFrame
  cases o.getLsbD 0 <;> cases m <;> decide

@[simp] theorem frameOk_powerDown : frameOk powerDownFrame = true := by decide

@[simp] theorem frameOk_setProperty (p v : Half) : frameOk (setPropertyFrame p v) = true :=
  frameOk_of_encode (Laws.Encoding.wireSetProperty p v rfl) rfl

@[simp] theorem frameOk_getProperty (p : Half) : frameOk (getPropertyFrame p) = true :=
  frameOk_of_encode (Laws.Encoding.wireGetProperty p rfl) rfl

@[simp] theorem frameOk_tune (m : Mode) (f : Half) : frameOk (tuneFrame m f) = true := by
  cases m
  · exact frameOk_of_encode (Laws.Encoding.wireFmTuneFreq f rfl) rfl
  · exact frameOk_of_encode (Laws.Encoding.wireAmTuneFreq f rfl) rfl

@[simp] theorem frameOk_seek (m : Mode) (up wrap : Bool) : frameOk (seekFrame m up wrap) = true := by
  cases m <;> cases up <;> cases wrap <;> decide

@[simp] theorem frameOk_getIntStatus : frameOk getIntStatusFrame = true := by decide

@[simp] theorem frameOk_tuneStatus (m : Mode) (c i : Bool) : frameOk (tuneStatusFrame m c i) = true := by
  cases m <;> cases c <;> cases i <;> decide

@[simp] theorem frameOk_rsqStatus (m : Mode) (i : Bool) : frameOk (rsqStatusFrame m i) = true := by
  cases m <;> cases i <;> decide

@[simp] theorem frameOk_revision : frameOk revisionFrame = true := by decide

/-! ## Readings of the trace -/

/-- A program that is in order where CTS has not been seen is in order where it has. -/
theorem seqGuarded_mono {b : Bool} {p : List MicroOp} (h : seqGuarded false p = true) : seqGuarded b p = true := by
  cases b
  · exact h
  · induction p with
    | nil => rfl
    | cons m p ih => cases m <;> simp_all [seqGuarded]

@[simp] theorem guarded_append (r : Bool) (es : List Event) (e : Event) :
    guarded r (es ++ [e]) = (guarded r es && (!e.isWrite || readyAfter r es)) := by
  induction es generalizing r with
  | nil => simp [guarded, readyAfter]
  | cons a es ih => simp [guarded, readyAfter, ih, Bool.and_assoc]

@[simp] theorem readyAfter_append (r : Bool) (es : List Event) (e : Event) :
    readyAfter r (es ++ [e]) = readyNext (readyAfter r es) e := by simp [readyAfter]

end Sys2Proof.Machine
end

