-- ==== Sys2Proof/Laws/Params.lean ====
section
/-! SUPPORT. The machine with any parameters, and the machine itself: `exec`, `step`, the reset state and `core` are those
with the parameters the spec assigns (R8).  What a step does with a running wait, with the head of SEQ and at a program's
end is said here once, for any parameters. -/

namespace Sys2Proof.Machine

/-! ## The parameters the spec assigns -/

/-- The meaning of an instruction is the one with the spec's parameters. -/
theorem execWith_spec (i : Instr) (s : State) : execWith Params.spec i s = exec i s := by
  cases i <;> rfl

/-- The step is the one with the spec's parameters. -/
theorem stepWith_spec (s : State) : stepWith Params.spec s = step s := by
  have h : execWith Params.spec = exec := funext fun i => funext (execWith_spec i)
  rw [stepWith, h, step]

/-- The machine is the one with the spec's parameters. -/
theorem coreWith_spec : coreWith Params.spec = Sys2Proof.core := by
  simp only [coreWith, Sys2Proof.core, State.reset, funext stepWith_spec]

/-! ## A step with any parameters (R197) -/

@[simp] theorem runFetched_stuck (ex : Instr → State → Outcome) (p : Params) :
    runFetched ex .stuck p = .fault .idle := rfl
@[simp] theorem runFetched_instr (ex : Instr → State → Outcome) (i : Instr) (s : State) (p : Params) :
    runFetched ex (.instr i s) p = ex i s := rfl
@[simp] theorem runFetched_illegal (ex : Instr → State → Outcome) (w : ReqWord) (s : State) (p : Params) :
    runFetched ex (.illegal w s) p = .next (illegalRequest w s) := rfl
@[simp] theorem runFetched_wait (ex : Instr → State → Outcome) (s : State) (p : Params) :
    runFetched ex (.wait s) p = .next (waitStep s p) := rfl
@[simp] theorem runFetched_micro (ex : Instr → State → Outcome) (m : MicroOp) (s : State) (p : Params) :
    runFetched ex (.micro m s) p = .next (runMicro m s p) := rfl
@[simp] theorem runFetched_done (ex : Instr → State → Outcome) (s : State) (p : Params) :
    runFetched ex (.done s) p = .next (complete s) := rfl

/-- A frame decodes to a wire frame only (R81). -/
theorem isRequest_of_decodeFrame {p : Params} {f : List Byte} {i : Instr} (h : decodeFrame f p = .ok i) :
    i.isRequest = false := by
  have he := encode_decodeFrame h
  cases i <;> first | rfl | simp [encode] at he

/-- The meaning of a wire frame is the WR of its bytes. -/
theorem execWith_wire {i : Instr} (h : i.isRequest = false) (p : Params) (s : State) :
    execWith p i s = .next (wr (i.frameBytes p) s) := by
  cases i <;> first | rfl | simp [Instr.isRequest] at h

/-- A step of a running wait (R197 (b), (c)). -/
theorem stepWith_wait (p : Params) {s : State} (hb : s.busy = true) (hw : s.wstate ≠ .idle) :
    stepWith p s = .next (waitStep s p) := by
  cases hs : s.wstate with
  | idle => exact absurd hs hw
  | poll => simp [stepWith, fetch, hb, hs]
  | sleep => simp [stepWith, fetch, hb, hs]

/-- The final `finish` (R197 (e)). -/
theorem stepWith_done (p : Params) {s : State} (hb : s.busy = true) (hw : s.wstate = .idle) (hs : s.seq = []) :
    stepWith p s = .next (complete s) := by
  simp [stepWith, fetch, fetchMicro, hb, hw, hs]

/-- The head of SEQ runs; a WR runs as the wire frame its bytes are (R196, R197). -/
theorem stepWith_micro (p : Params) {s : State} {m : MicroOp} {rest : List MicroOp} (hb : s.busy = true)
    (hw : s.wstate = .idle) (hs : s.seq = m :: rest) :
    stepWith p s = .next (runMicro m { s with seq := rest } p) := by
  cases m with
  | wr f =>
    cases hd : decodeFrame f p with
    | error e => simp [stepWith, fetch, fetchMicro, hb, hw, hs, hd]
    | ok i =>
      simp [stepWith, fetch, fetchMicro, hb, hw, hs, hd, execWith_wire (isRequest_of_decodeFrame hd),
        frameBytes_of_decodeFrame hd, runMicro]
  | pre | invMode | settle _ | waitCts | waitStc | rd _ _ | commit _ | resolve | cfgWrite _ _ | noteReset =>
    simp [stepWith, fetch, fetchMicro, hb, hw, hs]

end Sys2Proof.Machine
end

