-- ==== Sys2Proof/Laws/Step.lean ====
section
/-! SUPPORT. What a step can do, said once: the inversion lemmas of `exec` and `step` that the invariants are derived
from. -/

namespace Sys2Proof.Machine

/-- A word decodes to a request only (R71). -/
theorem isRequest_of_decodeRequest {w : ReqWord} {i : Instr} (h : decodeRequest w = .ok i) : i.isRequest = true := by
  simp only [decodeRequest, require_eq_ok] at h
  obtain ⟨-, -, h⟩ := h
  unfold decodeFields at h
  split at h <;> simp only [require_eq_ok, Except.ok.injEq, reduceCtorEq] at h <;> grind [Instr.isRequest]

/-- The meaning of a wire frame is the WR of its bytes. -/
theorem exec_wire {i : Instr} (h : i.isRequest = false) (s : State) : exec i s = .next (wr i.frameBytes s) :=
  (execWith_spec i s).symm.trans (execWith_wire h _ s)

/-- The programs: each is made of legal micro-operations and writes no frame before CTS is seen. -/
theorem program_ok_query {f : List Byte} {n : Nat} {k : Kind} (hf : frameOk f = true) (hk : k ≠ .none) (hn : n = k.len) :
    ProgramOk (queryProgram f n k) := by
  subst hn
  constructor
  · intro m hm
    simp only [queryProgram, List.mem_cons, List.not_mem_nil, or_false] at hm
    rcases hm with rfl | rfl | rfl | rfl <;> simp [MicroOp.legal, hf, hk]
  · rfl

theorem program_ok_tuning {f : List Byte} (hf : frameOk f = true) : ProgramOk (tuningProgram f) := by
  constructor
  · intro m hm
    simp only [tuningProgram, List.mem_cons, List.not_mem_nil, or_false] at hm
    rcases hm with rfl | rfl | rfl | rfl <;> simp [MicroOp.legal, hf]
  · rfl

theorem program_ok_powerUp (m : Mode) (c : Cfg) : ProgramOk (powerUpProgram m c) := by
  constructor
  · intro x hx
    simp only [powerUpProgram, List.mem_cons, List.not_mem_nil, or_false] at hx
    rcases hx with rfl | rfl | rfl | rfl | rfl | rfl | rfl | rfl | rfl | rfl <;> simp [MicroOp.legal]
  · rfl

theorem program_ok_powerDown (c : Cfg) : ProgramOk (powerDownProgram c) := by
  constructor
  · intro x hx
    simp only [powerDownProgram, List.mem_cons, List.not_mem_nil, or_false] at hx
    rcases hx with rfl | rfl | rfl | rfl <;> simp [MicroOp.legal]
  · rfl

theorem program_ok_setProperty (p v : Half) : ProgramOk (setPropertyProgram p v) := by
  constructor
  · intro x hx
    simp only [setPropertyProgram, List.mem_cons, List.not_mem_nil, or_false] at hx
    rcases hx with rfl | rfl | rfl <;> simp [MicroOp.legal]
  · rfl

/-- What the checks of a request decide: an error code, never NONE, or a program in order. -/
def CheckedOk (c : Except ResultCode (List MicroOp)) : Prop :=
  (∀ e, c = .error e → e ≠ .none) ∧ ∀ p, c = .ok p → ProgramOk p

theorem checkedOk_ok {p : List MicroOp} (h : ProgramOk p) : CheckedOk (.ok p) :=
  ⟨fun _ e => (nomatch e), fun _ e => by injection e with e; exact e ▸ h⟩

theorem checkedOk_error {c : ResultCode} (h : c ≠ .none) : CheckedOk (.error c) :=
  ⟨fun _ e => by injection e with e; exact e ▸ h, fun _ e => (nomatch e)⟩

theorem checkedOk_needAddr {c : Except ResultCode (List MicroOp)} (s : State) (h : CheckedOk c) :
    CheckedOk (needAddr s c) := by
  unfold needAddr
  split
  · exact checkedOk_error (by decide)
  · exact h

theorem checkedOk_needMode {c : Mode → Except ResultCode (List MicroOp)} (s : State) (h : ∀ m, CheckedOk (c m)) :
    CheckedOk (needMode s c) := by
  unfold needMode
  split
  · exact checkedOk_error (by decide)
  · exact h _

theorem checkedOk_needLegal {p : List MicroOp} (ok : Bool) (h : ok = true → ProgramOk p) :
    CheckedOk (needLegal ok p) := by
  unfold needLegal
  split
  · exact checkedOk_ok (h ‹_›)
  · exact checkedOk_error (by decide)

theorem checkedOk_configWrite (i : Byte) (v : Half) : CheckedOk (configWriteChecked i v) := by
  unfold configWriteChecked
  split
  · exact checkedOk_error (by decide)
  · refine checkedOk_needLegal _ fun h => ⟨fun m hm => ?_, rfl⟩
    rw [List.mem_singleton] at hm
    subst hm
    exact h

/-- The meaning of a request is its presentation on the port, its checks deciding a code or a program (R31, R212). -/
theorem exec_request {i : Instr} (h : i.isRequest = true) (s : State) :
    ∃ c, CheckedOk c ∧ exec i s = .next (present i.word c s) := by
  cases i with
  | powerUp m => exact ⟨_, checkedOk_needAddr s (checkedOk_ok (program_ok_powerUp m s.cfg)), rfl⟩
  | powerDown => exact ⟨_, checkedOk_needAddr s (checkedOk_ok (program_ok_powerDown s.cfg)), rfl⟩
  | setProperty id value =>
    exact ⟨_, checkedOk_needAddr s (checkedOk_needLegal _ fun _ => program_ok_setProperty id value), rfl⟩
  | getProperty id =>
    exact ⟨_, checkedOk_needAddr s (checkedOk_ok (program_ok_query (k := .property) (frameOk_getProperty id) (by decide) rfl)), rfl⟩
  | tune freq =>
    exact ⟨_, checkedOk_needAddr s (checkedOk_needMode s fun m => checkedOk_needLegal _ fun _ =>
      program_ok_tuning (frameOk_tune m freq)), rfl⟩
  | seekStart up wrap =>
    exact ⟨_, checkedOk_needAddr s (checkedOk_needMode s fun m => checkedOk_ok (program_ok_tuning (frameOk_seek m up wrap))), rfl⟩
  | getStatus => exact ⟨_, checkedOk_needAddr s (checkedOk_ok (program_ok_query (k := .status) frameOk_getIntStatus (by decide) rfl)), rfl⟩
  | getTuneStatus cancel intack =>
    exact ⟨_, checkedOk_needAddr s (checkedOk_needMode s fun m => checkedOk_ok
      (program_ok_query (frameOk_tuneStatus m cancel intack) (by cases m <;> decide) (by cases m <;> rfl))), rfl⟩
  | getRsqStatus intack =>
    exact ⟨_, checkedOk_needAddr s (checkedOk_needMode s fun m => checkedOk_ok
      (program_ok_query (frameOk_rsqStatus m intack) (by cases m <;> decide) (by cases m <;> rfl))), rfl⟩
  | getRevision => exact ⟨_, checkedOk_needAddr s (checkedOk_ok (program_ok_query (k := .revision) frameOk_revision (by decide) rfl)), rfl⟩
  | getRevisionLong =>
    exact ⟨_, checkedOk_needAddr s (checkedOk_ok (program_ok_query (k := .revision) frameOk_revision (by decide) rfl)), rfl⟩
  | awaitReady =>
    exact ⟨_, checkedOk_needAddr s (checkedOk_ok ⟨by intro m hm; simp at hm; subst hm; rfl, rfl⟩), rfl⟩
  | resolveAddress => exact ⟨_, checkedOk_ok ⟨by intro m hm; simp at hm; subst hm; rfl, rfl⟩, rfl⟩
  | configWrite index value => exact ⟨_, checkedOk_configWrite index value, rfl⟩
  | noteChipReset => exact ⟨_, checkedOk_ok ⟨by intro m hm; simp at hm; subst hm; rfl, rfl⟩, rfl⟩
  | wirePowerUp _ _ _ | wireGetRev | wirePowerDown | wireSetProperty _ _ | wireGetProperty _ | wireGetIntStatus
  | wireFmTuneFreq _ | wireFmSeekStart _ _ | wireFmTuneStatus _ _ | wireFmRsqStatus _ | wireAmTuneFreq _
  | wireAmSeekStart _ _ | wireAmTuneStatus _ _ | wireAmRsqStatus _ => simp [Instr.isRequest] at h

/-- A step of a running wait (R197 (b), (c)). -/
theorem step_wait {s : State} (hb : s.busy = true) (hw : s.wstate ≠ .idle) : step s = .next (waitStep s) :=
  (stepWith_spec s).symm.trans (stepWith_wait _ hb hw)

/-- The final `finish` (R197 (e)). -/
theorem step_done {s : State} (hb : s.busy = true) (hw : s.wstate = .idle) (hs : s.seq = []) :
    step s = .next (complete s) :=
  (stepWith_spec s).symm.trans (stepWith_done _ hb hw hs)

/-- The head of SEQ runs; a WR runs as the wire frame its bytes are (R196, R197). -/
theorem step_micro {s : State} {m : MicroOp} {rest : List MicroOp} (hb : s.busy = true) (hw : s.wstate = .idle)
    (hs : s.seq = m :: rest) : step s = .next (runMicro m { s with seq := rest }) :=
  (stepWith_spec s).symm.trans (stepWith_micro _ hb hw hs)

/-- Everything a step can do (R197): an acceptance, a step of the running wait, the head micro-operation, or the final
`finish`. -/
theorem step_cases {s t : State} (h : step s = .next t) :
    (s.busy = false ∧ ∃ w w' rest c, s.port = w :: rest ∧ CheckedOk c ∧ t = accept w' c { s with port := rest }) ∨
    (s.busy = true ∧ s.wstate ≠ .idle ∧ t = waitStep s) ∨
    (s.busy = true ∧ s.wstate = .idle ∧ ∃ m rest, s.seq = m :: rest ∧ t = runMicro m { s with seq := rest }) ∨
    (s.busy = true ∧ s.wstate = .idle ∧ s.seq = [] ∧ t = complete s) := by
  by_cases hb : s.busy = true
  rotate_left
  · have hb : s.busy = false := by simpa using hb
    refine .inl ⟨hb, ?_⟩
    cases hp : s.port with
    | nil => simp [step, fetch, fetchRequest, hb, hp] at h
    | cons w rest =>
      cases hd : decodeRequest w with
      | error e =>
        simp [step, fetch, fetchRequest, hb, hp, hd, illegalRequest, present] at h
        exact ⟨w, w, rest, _, rfl, checkedOk_error (by decide), h.symm⟩
      | ok i =>
        obtain ⟨c, hc, he⟩ := exec_request (isRequest_of_decodeRequest hd) { s with port := rest }
        have hx : step s = exec i { s with port := rest } := by simp [step, fetch, fetchRequest, hb, hp, hd]
        rw [hx, he] at h
        injection h with h
        exact ⟨w, i.word, rest, c, rfl, hc, by rw [← h]; simp [present, hb]⟩
  · by_cases hw : s.wstate = .idle
    · cases hs : s.seq with
      | nil =>
        rw [step_done hb hw hs] at h
        injection h with h
        exact .inr (.inr (.inr ⟨hb, hw, rfl, h.symm⟩))
      | cons m rest =>
        rw [step_micro hb hw hs] at h
        injection h with h
        exact .inr (.inr (.inl ⟨hb, hw, m, rest, rfl, h.symm⟩))
    · rw [step_wait hb hw] at h
      injection h with h
      exact .inr (.inl ⟨hb, hw, h.symm⟩)

/-- Everything a step can do, with its micro-operation named (R196, R197). -/
theorem step_effects {s t : State} (h : step s = .next t) :
    (s.busy = false ∧ ∃ w w' rest c, s.port = w :: rest ∧ CheckedOk c ∧ t = accept w' c { s with port := rest }) ∨
    (s.busy = true ∧ s.wstate = .poll ∧ t = pollStep s) ∨
    (s.busy = true ∧ s.wstate = .sleep ∧ t = { delay s.cfg.pollIntervalMs s with wstate := .poll }) ∨
    (s.busy = true ∧ s.wstate = .idle ∧ ∃ rest k,
      (s.seq = .pre :: rest ∧ s.ctsSeen = false ∧ k = .cts ∨ s.seq = .waitCts :: rest ∧ k = .cts ∨
        s.seq = .waitStc :: rest ∧ k = .stc) ∧
      t = pollStep { s with seq := rest, wkind := k, attempts := 0, wstate := .poll }) ∨
    (s.busy = true ∧ s.wstate = .idle ∧ ∃ rest, s.seq = .pre :: rest ∧ s.ctsSeen = true ∧
      t = { s with seq := rest }) ∨
    (s.busy = true ∧ s.wstate = .idle ∧ ∃ rest, s.seq = .invMode :: rest ∧
      t = { s with seq := rest, mode := none }) ∨
    (s.busy = true ∧ s.wstate = .idle ∧ ∃ rest m, s.seq = .commit m :: rest ∧
      t = { s with seq := rest, mode := some m }) ∨
    (s.busy = true ∧ s.wstate = .idle ∧ ∃ rest ms, s.seq = .settle ms :: rest ∧
      t = { s with seq := rest, trace := s.trace ++ [.delay ms.toNat] }) ∨
    (s.busy = true ∧ s.wstate = .idle ∧ ∃ rest, s.seq = .noteReset :: rest ∧
      t = { s with seq := rest, ctsSeen := false, mode := none }) ∨
    (s.busy = true ∧ s.wstate = .idle ∧ ∃ rest r v, s.seq = .cfgWrite r v :: rest ∧
      t = { s with seq := rest, cfg := s.cfg.set r v }) ∨
    (s.busy = true ∧ s.wstate = .idle ∧ ∃ rest f, s.seq = .wr f :: rest ∧ t = wr f { s with seq := rest }) ∨
    (s.busy = true ∧ s.wstate = .idle ∧ ∃ rest n k, s.seq = .rd n k :: rest ∧ t = rd n k { s with seq := rest }) ∨
    (s.busy = true ∧ s.wstate = .idle ∧ ∃ rest, s.seq = .resolve :: rest ∧ t = resolve { s with seq := rest }) ∨
    (s.busy = true ∧ s.wstate = .idle ∧ s.seq = [] ∧ t = complete s) := by
  rcases step_cases h with h | ⟨hb, hw, rfl⟩ | ⟨hb, hw, m, rest, hs, rfl⟩ | h
  · exact .inl h
  · cases hw' : s.wstate with
    | idle => exact absurd hw' hw
    | poll => right; left; simp [hb, waitStep, hw']
    | sleep => right; right; left; simp [hb, waitStep, hw']
  · cases m <;> simp [hb, hw, hs, runMicro] <;> try (first | rfl | exact ⟨_, _, ⟨rfl, rfl⟩, rfl⟩)
    cases s.ctsSeen <;> simp [pre, startWait]
  · simp [h]

end Sys2Proof.Machine
end

