-- ==== Sys2Proof/Tests/Slice0.lean ====
section
/-! SUPPORT. The model's own tests.  Expected values come from 95_test_vectors.md (the vector is named in each comment)
or are worked out by hand from the rule named.  After them, for every statement with hypotheses, a witness that meets
them. -/

open Sys2Proof Sys2Proof.Machine

namespace Sys2Proof.Tests

/-! ## Small states -/

/-- After block reset, with these write, read and scan answers to come. -/
def withAnswers (ws : List WriteAnswer) (rs : List ReadAnswer) (scans : List ScanAnswer) (s : State) : State :=
  { s with bus := { writes := ws, reads := rs, scans := scans, draws := 0 } }

/-- Address 0x63 valid, CTS seen, in this mode: the start state of most vectors. -/
def ready (m : Option Mode) : State := { State.reset with addr := some 0x63, mode := m, ctsSeen := true }

/-- Address valid, CTS not seen. -/
def unready : State := { State.reset with addr := some 0x63 }

/-- A busy state with this program left. -/
def running (p : List MicroOp) (s : State) : State := { s with busy := true, seq := p }

/-- A running wait in W_POLL, this many polls done. -/
def polling (k : WKind) (n : Half) (s : State) : State :=
  { s with busy := true, wkind := k, wstate := .poll, attempts := n }

/-- The trace and result code of an outcome. -/
def traceAndCode : Outcome → Option (List Event × ResultCode)
  | .next t => some (t.trace, t.resultCode)
  | .fault _ => none
  | .refused _ => none

/-- The result code and ADDR of an outcome. -/
def codeAndAddr : Outcome → Option (ResultCode × Option Addr)
  | .next t => some (t.resultCode, t.addr)
  | .fault _ => none
  | .refused _ => none

/-- The program an outcome has left. -/
def program : Outcome → Option (List MicroOp)
  | .next t => some t.seq
  | .fault _ => none
  | .refused _ => none

/-- The code with which an idle CCODEC rejects a word, and whether the trace is empty. -/
def rejects (w : ReqWord) (s : State) : Option (ResultCode × Bool) :=
  match step { s with port := [w] } with
  | .next t => if t.busy then none else some (t.resultCode, t.trace.isEmpty)
  | .fault _ => none
  | .refused _ => none

/-! ## Well-formedness: the one check refuses -/

/-- R86: the second argument byte of the POWER_UP frame is 0x05. -/
theorem test_wellFormed_refuses_opmode :
    (Instr.wirePowerUp false .fm 0x04).wellFormed = false ∧ (Instr.wirePowerUp false .fm 0x05).wellFormed = true := by
  decide

/-! ## Decoding: words and frames written out from the spec -/

/-- E1 to E8. -/
theorem test_decode_requests_low :
    decodeRequest 0x1000000000000000 = .ok (.powerUp .fm) ∧
    decodeRequest 0x1100000000000000 = .ok (.powerUp .am) ∧
    decodeRequest 0x2000000000000000 = .ok .powerDown ∧
    decodeRequest 0x30004000003F0000 = .ok (.setProperty 0x4000 63) ∧
    decodeRequest 0x4000400000000000 = .ok (.getProperty 0x4000) ∧
    decodeRequest 0x5000277E00000000 = .ok (.tune 10110) ∧
    decodeRequest 0x6C00000000000000 = .ok (.seekStart true true) ∧
    decodeRequest 0x7000000000000000 = .ok .getStatus := by decide

/-- E9 to E17. -/
theorem test_decode_requests_high :
    decodeRequest 0x8100000000000000 = .ok (.getTuneStatus false true) ∧
    decodeRequest 0x8300000000000000 = .ok (.getTuneStatus true true) ∧
    decodeRequest 0x9100000000000000 = .ok (.getRsqStatus true) ∧
    decodeRequest 0xA000000000000000 = .ok .getRevision ∧
    decodeRequest 0xB000000000000000 = .ok .getRevisionLong ∧
    decodeRequest 0xC000000000000000 = .ok .awaitReady ∧
    decodeRequest 0xD000000000000000 = .ok .resolveAddress ∧
    decodeRequest 0xE000000000030000 = .ok (.configWrite 0x00 3) ∧
    decodeRequest 0xF000000000000000 = .ok .noteChipReset := by decide

/-- Single flag bits (R72): UP is SUB[3], WRAP is SUB[2], CANCEL is SUB[1]. -/
theorem test_decode_flag_bits :
    decodeRequest 0x6800000000000000 = .ok (.seekStart true false) ∧
    decodeRequest 0x6400000000000000 = .ok (.seekStart false true) ∧
    decodeRequest 0x8200000000000000 = .ok (.getTuneStatus true false) ∧
    decodeRequest 0xE000000D00000000 = .ok (.configWrite 0x0D 0) := by decide

/-- E18 to E26. -/
theorem test_decode_illegal_requests :
    decodeRequest 0x0000000000000000 = .error .reservedOp ∧
    decodeRequest 0x5000277E00000001 = .error .reservedRsv0 ∧
    decodeRequest 0x3001400000000000 = .error .reservedRsv1 ∧
    decodeRequest 0x2100000000000000 = .error .reservedSub ∧
    decodeRequest 0x1200000000000000 = .error .reservedSub ∧
    decodeRequest 0x6100000000000000 = .error .reservedSub ∧
    decodeRequest 0x4000400000010000 = .error .reservedB ∧
    decodeRequest 0xE000010000000000 = .error .reservedA ∧
    decodeRequest 0x9200000000000000 = .error .reservedSub := by decide

/-- F1 to F14. -/
theorem test_decode_frames_low :
    decodeFrame [0x01, 0x00, 0x05] = .ok (.wirePowerUp false .fm 0x05) ∧
    decodeFrame [0x01, 0x01, 0x05] = .ok (.wirePowerUp false .am 0x05) ∧
    decodeFrame [0x01, 0x10, 0x05] = .ok (.wirePowerUp true .fm 0x05) ∧
    decodeFrame [0x01, 0x11, 0x05] = .ok (.wirePowerUp true .am 0x05) ∧
    decodeFrame [0x11] = .ok .wirePowerDown ∧
    decodeFrame [0x12, 0x00, 0x12, 0x34, 0xFF, 0xFF] = .ok (.wireSetProperty 0x1234 0xFFFF) ∧
    decodeFrame [0x13, 0x00, 0x40, 0x00] = .ok (.wireGetProperty 0x4000) ∧
    decodeFrame [0x14] = .ok .wireGetIntStatus ∧
    decodeFrame [0x20, 0x00, 0x19, 0x00, 0x00] = .ok (.wireFmTuneFreq 6400) := by decide

/-- F17 to F30. -/
theorem test_decode_frames_high :
    decodeFrame [0x40, 0x00, 0x02, 0x08, 0x00, 0x00] = .ok (.wireAmTuneFreq 520) ∧
    decodeFrame [0x21, 0x0C] = .ok (.wireFmSeekStart true true) ∧
    decodeFrame [0x41, 0x08, 0x00, 0x00, 0x00, 0x00] = .ok (.wireAmSeekStart true false) ∧
    decodeFrame [0x41, 0x04, 0x00, 0x00, 0x00, 0x00] = .ok (.wireAmSeekStart false true) ∧
    decodeFrame [0x22, 0x01] = .ok (.wireFmTuneStatus false true) ∧
    decodeFrame [0x42, 0x03] = .ok (.wireAmTuneStatus true true) ∧
    decodeFrame [0x23, 0x00] = .ok (.wireFmRsqStatus false) ∧
    decodeFrame [0x43, 0x01] = .ok (.wireAmRsqStatus true) ∧
    decodeFrame [0x10] = .ok .wireGetRev := by decide

/-- R82, R83, R86: no bytes, an unknown byte 0, a wrong length, reserved bits set. -/
theorem test_decode_frames_refused :
    decodeFrame [] = .error .emptyFrame ∧
    decodeFrame [0x15] = .error .unknownWireOp ∧
    decodeFrame [0x12, 0x00, 0x40] = .error .wrongFrameLength ∧
    decodeFrame [0x01, 0x80, 0x05] = .error .reservedFrameBits ∧
    decodeFrame [0x20, 0x01, 0x19, 0x00, 0x00] = .error .reservedFrameBits ∧
    decodeFrame [0x22, 0x04] = .error .reservedFrameBits := by decide

/-- The table's numbering: a request row has 64 bits, a frame row has its first byte lowest (log entry 20). -/
theorem test_decodeTableWord :
    decodeTableWord 64 0x5000277E00000000 = some (.tune 10110) ∧
    decodeTableWord 24 0x050101 = some (.wirePowerUp false .am 0x05) ∧
    decodeTableWord 48 0x3F0000400012 = some (.wireSetProperty 0x4000 63) ∧
    decodeTableWord 8 0x15 = none := by decide

/-! ## The framer (2.3) -/

/-- F1 to F12, for the frames of the requests themselves. -/
theorem test_frames_by_request :
    frame (.powerUp .am) .fm 1 = some [0x01, 0x11, 0x05] ∧
    frame .powerDown .fm 0 = some [0x11] ∧
    frame (.setProperty 0x4000 63) .fm 0 = some [0x12, 0x00, 0x40, 0x00, 0x00, 0x3F] ∧
    frame (.getProperty 0x4000) .am 0 = some [0x13, 0x00, 0x40, 0x00] ∧
    frame (.tune 10110) .fm 0 = some [0x20, 0x00, 0x27, 0x7E, 0x00] ∧
    frame (.tune 1000) .am 0 = some [0x40, 0x00, 0x03, 0xE8, 0x00, 0x00] ∧
    frame .awaitReady .fm 0 = none := by decide

/-! ## Acceptance (2.2) -/

/-- K1 to K3, K5: the order of the checks. -/
theorem test_check_order :
    rejects 0x0000000000000000 State.reset = some (.illegalRequest, true) ∧
    rejects 0x5000138800000000 State.reset = some (.noAddress, true) ∧
    rejects 0x5000138800000000 (ready none) = some (.noMode, true) ∧
    rejects 0x3000400000460000 State.reset = some (.noAddress, true) ∧
    rejects 0x8000000000000000 (ready none) = some (.noMode, true) := by decide

/-- K4, K7, K8, E27, S7, F15, F19: operands out of range. -/
theorem test_operand_checks :
    rejects 0x5000138800000000 (ready (some .fm)) = some (.invalidArgument, true) ∧
    rejects 0xE000000000000000 State.reset = some (.invalidArgument, true) ∧
    rejects 0xE000000700020000 State.reset = some (.invalidArgument, true) ∧
    rejects 0xE000000D00000000 State.reset = some (.invalidArgument, true) ∧
    rejects 0x3000400000460000 (ready none) = some (.invalidArgument, true) ∧
    rejects 0x500018FF00000000 (ready (some .fm)) = some (.invalidArgument, true) ∧
    rejects 0x500006B000000000 (ready (some .am)) = some (.invalidArgument, true) := by decide

/-- K6, K9, F14, F18: accepted. -/
theorem test_accepted :
    rejects 0xE000000700010000 State.reset = none ∧
    rejects 0x7000000000000000 (ready none) = none ∧
    rejects 0x50002A3000000000 (ready (some .fm)) = none ∧
    rejects 0x500006AE00000000 (ready (some .am)) = none := by decide

/-- A program is loaded as its rule writes it (R102, R104, R107). -/
theorem test_programs :
    program (exec (.setProperty 0x4000 63) (ready none)) =
      some [.pre, .wr [0x12, 0x00, 0x40, 0x00, 0x00, 0x3F], .waitCts] ∧
    program (exec (.tune 520) (ready (some .am))) =
      some [.pre, .wr [0x40, 0x00, 0x02, 0x08, 0x00, 0x00], .waitStc, .waitCts] ∧
    program (exec (.getTuneStatus false true) (ready (some .am))) =
      some [.pre, .wr [0x42, 0x01], .waitCts, .rd 7 .tuneStatusAm] := by decide

/-! ## Other parameters (R8, 93_implementation_defined.md U5) -/

/-- CCODEC with `P_GETPROP_LEN` = 3. -/
def shortProperty : Params := { Params.spec with getPropLen := 3 }

/-- GET_PROPERTY reads three bytes where `P_GETPROP_LEN` is 3, and the record has no value field (D14). -/
theorem test_getPropLen_three :
    program (execWith shortProperty (.getProperty 0x4000) (ready none)) =
      some [.pre, .wr [0x13, 0x00, 0x40, 0x00], .waitCts, .rd 3 .property] ∧
    (match stepWith shortProperty
        (running [.rd 3 .property] (withAnswers [] [.bytes [0x80, 0x00, 0x3F]] [] (ready none))) with
      | .next t => t.record shortProperty
      | .fault _ => .error .noRecord
      | .refused _ => .error .noRecord) = .ok (.propertyShort ⟨true, false, false, 0x80⟩ 0x00 0x3F) := by decide

/-- A chip with another opcode, operand byte and padding (R80, R81, R86). -/
theorem test_other_wire_table :
    let p : Params := { Params.spec with wireOp := fun _ => 0x55, powerUpOpmode := 0xB0, tunePadFm := 2 }
    frame (.powerUp .am) .fm 1 p = some [0x55, 0x11, 0xB0] ∧
    frame (.tune 10110) .fm 0 p = some [0x55, 0x00, 0x27, 0x7E, 0x00, 0x00] := by decide

/-! ## One bus event (2.6, 2.8) -/

/-- C2 and S-4: a failed frame write ends BUS_ERROR. -/
theorem test_write_fails :
    traceAndCode (step (running [.wr [0x01, 0x00, 0x05], .waitCts] (withAnswers [.busErr] [] [] (ready none)))) =
      some ([.write 0x63 [0x01, 0x00, 0x05] .busErr], .busError) := by decide

/-- W5, W4, W8, W9, W10: one poll of AWAIT_READY and what ends it. -/
theorem test_one_poll :
    traceAndCode (step (polling .cts 0 (withAnswers [] [.bytes [0x80]] [] unready))) =
      some ([.read 0x63 1 (.bytes [0x80])], .none) ∧
    traceAndCode (step (polling .cts 49 (withAnswers [] [.bytes [0x00]] [] unready))) =
      some ([.read 0x63 1 (.bytes [0x00])], .timeout) ∧
    traceAndCode (step (polling .cts 0 (withAnswers [] [.bytes []] [] unready))) =
      some ([.read 0x63 1 (.bytes [])], .shortRead) ∧
    traceAndCode (step (polling .cts 0 (withAnswers [] [.bytes [0x80, 0x00]] [] unready))) =
      some ([.read 0x63 1 (.bytes [0x80, 0x00])], .longRead) ∧
    traceAndCode (step (polling .cts 0 (withAnswers [] [.busErr] [] unready))) =
      some ([.read 0x63 1 .busErr], .busError) := by decide

/-- S-3, S-1: the STC wait reads where CTS has not been seen and writes GET_INT_STATUS where it has. -/
theorem test_stc_poll :
    traceAndCode (step (polling .stc 1 (withAnswers [.ok] [.bytes [0x81]] [] unready))) =
      some ([.read 0x63 1 (.bytes [0x81])], .none) ∧
    traceAndCode (step (polling .stc 1 (withAnswers [.ok] [.bytes [0x81]] [] (ready (some .fm))))) =
      some ([.write 0x63 [0x14] .ok], .none) := by decide

/-- A1 to A6. -/
theorem test_resolve :
    codeAndAddr (step (running [.resolve] (withAnswers [] [] [.found [0x63, 0x11]] State.reset))) =
      some (.none, some 0x11) ∧
    codeAndAddr (step (running [.resolve] (withAnswers [] [] [.found [0x63]] State.reset))) =
      some (.none, some 0x63) ∧
    codeAndAddr (step (running [.resolve] (withAnswers [] [] [.found [0x50, 0x10]] State.reset))) =
      some (.deviceNotFound, none) ∧
    codeAndAddr (step (running [.resolve] (withAnswers [] [] [.found []] State.reset))) =
      some (.deviceNotFound, none) ∧
    codeAndAddr (step (running [.resolve] (withAnswers [] [] [.busErr] State.reset))) = some (.busError, none) ∧
    traceAndCode (step (running [.resolve] (ready none))) = some ([], .none) := by decide

/-- A3: the trace records the scan's set in its one canonical form. -/
theorem test_scan_canonical :
    traceAndCode (step (running [.resolve] (withAnswers [] [] [.found [0x50, 0x10, 0x50]] State.reset))) =
      some ([.scan (.found [0x10, 0x50])], .deviceNotFound) := by decide

/-! ## The status-flag decoder and the parser (2.4, 2.5) -/

/-- D1 to D6b. -/
theorem test_observe :
    (observe 0x80 State.reset).ctsSeen = true ∧ (observe 0x80 State.reset).errSeen = false ∧
    (observe 0xC0 State.reset).errSeen = true ∧
    (observe 0x40 (ready none)).ctsSeen = false ∧ (observe 0x40 State.reset).errSeen = false ∧
    waitDone .stc 0x81 = true ∧ waitDone .stc 0x80 = false ∧ waitDone .stc 0x01 = false ∧
    waitDone .cts 0x81 = true ∧ (observe 0xFF State.reset).lastStatus = 0xFF := by decide

/-- D7, D9: readfreq, rssi, snr by place, and the scale by the record's kind. -/
theorem test_parse_tuneStatus :
    parse .tuneStatusFm [0x80, 0x01, 0x27, 0x7E, 0x2A, 0x14, 0x00] = .ok (.tuneStatusFm
      { status := ⟨true, false, false, 0x80⟩, bltf := false, afcrl := false, valid := true, resp1 := 0x01
        readfreq := 10110, rssi := 42, snr := 20 } 0) ∧
    (match parse .tuneStatusAm [0x80, 0x01, 0x02, 0x08, 0x1E, 0x0A, 0x00] with
      | .ok r => r.readfreqKhz?
      | .error _ => none) = some 520 := by decide

/-- D10. -/
theorem test_parse_rsqStatus :
    parse .rsqStatusFm [0x80, 0x00, 0x01, 0xB0, 0x2D, 0x19, 0x00] = .ok (.rsqStatusFm
      { status := ⟨true, false, false, 0x80⟩, ints := 0, smute := false, afcrl := false, valid := true
        resp2 := 0x01, resp3 := 0xB0, rssi := 45, snr := 25 } true 48 0) := by decide

/-- D12. -/
theorem test_parse_revision :
    parse .revision [0x80, 0x23, 0x32, 0x30, 0x12, 0x34, 0x32, 0x30, 0x44, 0, 0, 0, 0, 0] = .ok (.revision
      { status := ⟨true, false, false, 0x80⟩, pn := 0x23, fwmajor := 0x32, fwminor := 0x30, patch := 0x1234
        cmpmajor := 0x32, cmpminor := 0x30, chiprev := 0x44, raw9_13 := [0, 0, 0, 0, 0] }) := by decide

/-- D13 to D18. -/
theorem test_parse_lengths :
    parse .property [0x80, 0x00, 0x00, 0x3F] = .ok (.property ⟨true, false, false, 0x80⟩ 0 63) ∧
    parseWith 3 .property [0x80, 0x00, 0x3F] = .ok (.propertyShort ⟨true, false, false, 0x80⟩ 0x00 0x3F) ∧
    parse .tuneStatusFm [0x80, 0x01, 0x27, 0x7E, 0x2A, 0x14] = .error .shortRead ∧
    parse .tuneStatusFm [0x80, 0x01, 0x27, 0x7E, 0x2A, 0x14, 0x00, 0x00] = .error .longRead ∧
    parse .revision [0, 0, 0, 0, 0, 0, 0, 0, 0] = .error .shortRead := by decide

/-- D20: a record whose status byte shows CTS and ERR is kept whole. -/
theorem test_record_kept :
    (storeRecord 7 .tuneStatusFm [0xC0, 0x01, 0x27, 0x7E, 0x2A, 0x14, 0x00] unready).errSeen = true ∧
    (storeRecord 7 .tuneStatusFm [0xC0, 0x01, 0x27, 0x7E, 0x2A, 0x14, 0x00] unready).recordBytes =
      [0xC0, 0x01, 0x27, 0x7E, 0x2A, 0x14, 0x00] := by decide

/-! ## The assembler (R76, R77; P1 to P5's lines) -/

theorem test_assemble :
    assembleLine "CONFIG_WRITE SETTLE_UP_EXT_MS, 110" = .ok [.configWrite 0x0A 110] ∧
    assembleLine "SET_PROPERTY 0x4000, 63" = .ok [.setProperty 0x4000 63] ∧
    assembleLine "SEEK_START UP WRAP" = .ok [.seekStart true true] ∧
    assembleLine "GET_TUNE_STATUS INTACK" = .ok [.getTuneStatus false true] ∧
    assembleLine "TUNE 65536" = .error .doesNotFit ∧
    assembleLine "CONFIG_WRITE 256, 1" = .error .doesNotFit ∧
    assembleLine "tune 1000" = .error .badLine := by decide

theorem test_assemble_words :
    (assembleLine "CONFIG_WRITE SETTLE_UP_EXT_MS, 110").map programWords = .ok [0xE000000A006E0000] ∧
    (assembleLine "SET_VOLUME 70").map programWords = .ok [0x3000400000460000] := by decide

/-! ## What the host asks (log entry 20) -/

/-- The very next step after placing a word runs its instruction. -/
theorem test_withFetchWord :
    step (State.reset.withFetchWord 64 0x5000277E00000000) =
      exec (.tune 10110) (State.reset.withFetchWord 64 0x5000277E00000000 |> fun s => { s with port := [] }) ∧
    step (State.reset.withFetchWord 24 0x050101) =
      exec (.wirePowerUp false .am 0x05) { State.reset.withFetchWord 24 0x050101 with seq := [] } := ⟨rfl, rfl⟩

/-! ## Witnesses: for every statement with hypotheses, a state and operands that meet them all -/

/-- Does a step answer a next state that meets p? -/
def stepsTo (s : State) (p : State → Bool) : Bool :=
  match step s with
  | .next t => p t
  | .fault _ => false
  | .refused _ => false

/-- Ready in FM, with answers to come. -/
def fmWith (ws : List WriteAnswer) (rs : List ReadAnswer) : State := withAnswers ws rs [] (ready (some .fm))

/-- Ready in AM, with answers to come. -/
def amWith (ws : List WriteAnswer) (rs : List ReadAnswer) : State := withAnswers ws rs [] (ready (some .am))

theorem witness_DecodeOfEncode : (Instr.wirePowerUp true .am 0x05).wellFormed = true := by decide

theorem witness_EncodeOfDecode :
    decode (.word 0x6C00000000000000) = .ok (.seekStart true true) ∧
    decode (.frame [0x43, 0x01]) = .ok (.wireAmRsqStatus true) := by decide

theorem witness_RequestTableDecides :
    (∃ r, r ∈ requestTable ∧ r.matches 0xE0000007FFFF0000 = true) ∧
    decodeRequest 0xE0000007FFFF0000 = .ok (.configWrite 0x07 0xFFFF) := by decide

/-- One word for each way to be illegal; an idle state that is presented one. -/
theorem witness_IllegalRequestWords :
    reqOp 0x0FFF000000000000 = 0 ∧ reqRsv1 0x3001000000000000 ≠ 0 ∧ reqRsv0 0x3000000000000001 ≠ 0 ∧
    reqSub 0x1200000000000000 &&& (zeroFields (reqOp 0x1200000000000000)).1 ≠ 0 ∧
    reqA 0xE000010000000000 &&& (zeroFields (reqOp 0xE000010000000000)).2.1 ≠ 0 ∧
    reqB 0x5000000000010000 &&& (zeroFields (reqOp 0x5000000000010000)).2.2 ≠ 0 ∧
    decodeRequest 0x5000000000010000 = .error .reservedB ∧ State.reset.busy = false := by decide

theorem witness_FrameLengthByFirstByte : frame (.seekStart true false) .am 0 = some [0x41, 0x08, 0, 0, 0, 0] := by decide

theorem witness_FrequencyRoundTrip :
    ([0x80, 0x01, 0xFF, 0xFF, 0, 0, 0] : List Byte).length = 7 ∧ byteAt (tuneFrame .am 0xFFFF) 2 = 0xFF ∧
    byteAt (tuneFrame .am 0xFFFF) 3 = 0xFF := by decide

theorem witness_ObserveStatusByte :
    (polling .cts 0 { fmWith [] [.bytes [0x80]] with errSeen := true }).busy = true ∧
    stepsTo (polling .cts 0 { fmWith [] [.bytes [0x80]] with errSeen := true }) (·.errSeen) = true := by decide

theorem witness_ParserIsTotal :
    Kind.revision ≠ .none ∧ (List.replicate 13 (0 : Byte)).length < Kind.revision.len ∧
    Kind.revision.len < (List.replicate 15 (0 : Byte)).length ∧
    (List.replicate 14 (0 : Byte)).length = Kind.revision.len := by decide

/-- A state about to read a record of 7 bytes, with the answers of the four clauses. -/
theorem witness_ResponseRead :
    AtMicro (.rd 7 .tuneStatusFm) [] (running [.rd 7 .tuneStatusFm] (fmWith [] [.busErr])) ∧
    (fmWith [] [.busErr]).addr = some 0x63 ∧ (fmWith [] [.busErr]).bus.nextRead = .busErr ∧
    (fmWith [] [.bytes (List.replicate 6 0)]).bus.nextRead = .bytes (List.replicate 6 0) ∧
    (fmWith [] [.bytes (List.replicate 8 0)]).bus.nextRead = .bytes (List.replicate 8 0) ∧
    (fmWith [] [.bytes (List.replicate 7 0)]).bus.nextRead = .bytes (List.replicate 7 0) :=
  ⟨⟨rfl, rfl, rfl⟩, by decide⟩

theorem witness_BlockResetValues :
    (∃ before, blockReset (fmWith [.ok] []) = blockReset before) ∧ (ready (some .fm)).ctsSeen = true :=
  ⟨⟨_, rfl⟩, rfl⟩

theorem witness_StepRunsTheDecodedInstruction :
    ({ ready none with port := [0x7000000000000000] } : State).busy = false ∧
    decodeRequest 0x7000000000000000 = .ok .getStatus ∧
    AtMicro (.wr [0x14]) [.waitCts] (running [.wr [0x14], .waitCts] (ready none)) ∧
    decodeFrame [0x14] = .ok .wireGetIntStatus :=
  ⟨rfl, rfl, ⟨rfl, rfl, rfl⟩, rfl⟩

theorem witness_PowerRequestsAccepted : (ready none).busy = false ∧ (ready none).addr = some 0x63 := by decide

/-- The volume property at its limit, and another property with any value. -/
theorem witness_AddressRequestsAccepted :
    unready.busy = false ∧ unready.addr = some 0x63 ∧ (0x4000 ≠ (0x4000 : Half) ∨ (63 : Half) ≤ 63) ∧
    ((0x3FFF : Half) ≠ 0x4000 ∨ (0xFFFF : Half) ≤ 63) := by decide

/-- The band limits of each mode. -/
theorem witness_ModeRequestsAccepted :
    (ready (some .fm)).busy = false ∧ (ready (some .fm)).addr = some 0x63 ∧ (ready (some .fm)).mode = some .fm ∧
    (ready (some .fm)).cfg.bandLoFm ≤ 6400 ∧ (6400 : Half) ≤ (ready (some .fm)).cfg.bandHiFm ∧
    (ready (some .fm)).cfg.bandLoFm ≤ 10800 ∧ (10800 : Half) ≤ (ready (some .fm)).cfg.bandHiFm ∧
    (ready (some .am)).mode = some .am ∧
    (ready (some .am)).cfg.bandLoAm ≤ 520 ∧ (520 : Half) ≤ (ready (some .am)).cfg.bandHiAm ∧
    (ready (some .am)).cfg.bandLoAm ≤ 1710 ∧ (1710 : Half) ≤ (ready (some .am)).cfg.bandHiAm := by decide

/-- One state and operand for each clause, at the boundary. -/
theorem witness_AcceptanceChecksInOrder :
    State.reset.busy = false ∧ State.reset.addr = none ∧ decodeRequest 0 = .error .reservedOp ∧
    (ready none).busy = false ∧ (ready none).addr.isSome = true ∧ (ready none).mode = none ∧ (63 : Half) < 64 ∧
    (ready (some .fm)).mode = some .fm ∧ (6399 : Half) < (ready (some .fm)).cfg.bandLoFm ∧
    (ready (some .fm)).cfg.bandHiFm < 10801 ∧
    (ready (some .am)).mode = some .am ∧ (519 : Half) < (ready (some .am)).cfg.bandLoAm ∧
    (ready (some .am)).cfg.bandHiAm < 1711 ∧ (0x0C : Byte) < 0x0D ∧ (1 : Half) < 2 ∧
    ¬((0x0C : Byte) < 0x0C ∨ (((0x0C : Byte) = 0x00 ∨ (0x0C : Byte) = 0x01) ∧ (0 : Half) = 0) ∨
      ((0x0C : Byte) = 0x07 ∧ (1 : Half) < 0)) := by decide

theorem witness_VolumeRange :
    (ready none).busy = false ∧ (ready none).addr = some 0x63 ∧ (63 : Half) < 64 ∧ (63 : Half) ≤ 63 := by decide

theorem witness_BandRange :
    (ready (some .am)).busy = false ∧ (ready (some .am)).addr = some 0x63 ∧ (ready (some .am)).mode = some .am ∧
    ¬((ready (some .am)).cfg.bandLoAm.toNat ≤ (519 : Half).toNat ∧
      (519 : Half).toNat ≤ (ready (some .am)).cfg.bandHiAm.toNat) ∧
    ((ready (some .am)).cfg.bandLoAm.toNat ≤ (520 : Half).toNat ∧
      (520 : Half).toNat ≤ (ready (some .am)).cfg.bandHiAm.toNat) ∧
    ¬((ready (some .fm)).cfg.bandLoFm.toNat ≤ (10801 : Half).toNat ∧
      (10801 : Half).toNat ≤ (ready (some .fm)).cfg.bandHiFm.toNat) ∧
    ((ready (some .fm)).cfg.bandLoFm.toNat ≤ (10800 : Half).toNat ∧
      (10800 : Half).toNat ≤ (ready (some .fm)).cfg.bandHiFm.toNat) := by decide

theorem witness_HeldWhileBusy :
    (running [.invMode] { ready none with port := [0x7000000000000000] }).busy = true ∧
    stepsTo (running [.invMode] { ready none with port := [0x7000000000000000] }) (·.port == [0x7000000000000000]) = true ∧
    Instr.isRequest (.tune 0) = true := by decide

theorem witness_WireFrameIsWritten :
    (fmWith [.ok] []).addr = some 0x63 ∧ (fmWith [.ok] []).bus.nextWrite = .ok ∧
    (fmWith [.busErr] []).bus.nextWrite = .busErr ∧ State.reset.addr = none := by decide

theorem witness_EventFreeStepsAndDelays :
    AtMicro .invMode [] (running [.invMode] (ready none)) ∧ AtMicro (.commit .am) [] (running [.commit .am] unready) ∧
    AtMicro (.settle 0xFFFF) [] (running [.settle 0xFFFF] unready) ∧
    AtMicro .pre [] (running [.pre] (ready none)) ∧ (running [.pre] (ready none)).ctsSeen = true ∧
    ({ polling .stc 3 unready with wstate := .sleep } : State).wstate = .sleep :=
  ⟨⟨rfl, rfl, rfl⟩, ⟨rfl, rfl, rfl⟩, ⟨rfl, rfl, rfl⟩, ⟨rfl, rfl, rfl⟩, rfl, rfl⟩

/-- A poll of each kind; the attempt limit is 50: the poll after 48 polls sleeps, the poll after 49 times out. -/
theorem witness_PollOutcomes :
    (polling .cts 49 (fmWith [] [.bytes [0x00]])).busy = true ∧
    (polling .cts 49 (fmWith [] [.bytes [0x00]])).wstate = .poll ∧
    (polling .cts 49 (fmWith [] [.bytes [0x00]])).addr = some 0x63 ∧
    (polling .cts 49 (fmWith [] [.bytes [0x00]])).wkind = .cts ∧ (polling .stc 0 unready).ctsSeen = false ∧
    (fmWith [] [.bytes [0x00]]).cfg.maxAttempts ≤ 49 + 1 ∧ 48 + 1 < (fmWith [] [.bytes [0x00]]).cfg.maxAttempts ∧
    ((0x81 : Byte).getLsbD 7 = true ∧ (WKind.stc = .stc → (0x81 : Byte).getLsbD 0 = true)) ∧
    ¬((0x80 : Byte).getLsbD 7 = true ∧ (WKind.stc = .stc → (0x80 : Byte).getLsbD 0 = true)) ∧
    (fmWith [] [.busErr]).bus.nextRead = .busErr ∧ (fmWith [] [.bytes []]).bus.nextRead = .bytes [] ∧
    (fmWith [] [.bytes [0, 1]]).bus.nextRead = .bytes [0, 1] := by decide

theorem witness_WaitsStartAtOnce :
    AtMicro .waitCts [] (running [.waitCts] (ready none)) ∧ AtMicro .waitStc [] (running [.waitStc] (ready none)) ∧
    AtMicro .pre [] (running [.pre] unready) ∧ unready.ctsSeen = false :=
  ⟨⟨rfl, rfl, rfl⟩, ⟨rfl, rfl, rfl⟩, ⟨rfl, rfl, rfl⟩, rfl⟩

theorem witness_StcWaitSendsGetIntStatus :
    (polling .stc 1 (fmWith [.ok] [])).busy = true ∧ (polling .stc 1 (fmWith [.ok] [])).wstate = .poll ∧
    (polling .stc 1 (fmWith [.ok] [])).wkind = .stc ∧ (polling .stc 1 (fmWith [.ok] [])).ctsSeen = true ∧
    (polling .stc 1 (fmWith [.ok] [])).addr = some 0x63 ∧ (fmWith [.ok] []).bus.nextWrite = .ok ∧
    (fmWith [.busErr] []).bus.nextWrite = .busErr := by decide

theorem witness_WaitCtsIsBounded :
    AtMicro .waitCts [.commit .fm] (running [.waitCts, .commit .fm] unready) ∧
    unready.addr.isSome = true ∧ 1 ≤ unready.cfg.maxAttempts := ⟨⟨rfl, rfl, rfl⟩, by decide⟩

theorem witness_WaitStcIsBounded :
    AtMicro .waitStc [.waitCts] (running [.waitStc, .waitCts] unready) ∧
    unready.addr.isSome = true ∧ 1 ≤ unready.cfg.stcMaxAttempts ∧ unready.ctsSeen = false :=
  ⟨⟨rfl, rfl, rfl⟩, by decide⟩

/-- With MAX_ATTEMPTS at its lowest. -/
theorem witness_DeadChipTimesOut :
    let s := { withAnswers [] [.bytes [0x40]] [] unready with cfg := { Cfg.reset with maxAttempts := 1 } }
    s.busy = false ∧ s.wstate = .idle ∧ s.addr = some 0x63 ∧ 1 ≤ s.cfg.maxAttempts ∧
    (0x40 : Byte).getLsbD 7 = false ∧
    s.bus.reads = List.replicate s.cfg.maxAttempts.toNat (.bytes [0x40]) ++ [] := by decide

theorem witness_AwaitReadyRuns :
    (fmWith [] [.bytes [0xC0]]).busy = false ∧ (fmWith [] [.bytes [0xC0]]).wstate = .idle ∧
    (fmWith [] [.bytes [0xC0]]).addr = some 0x63 ∧ (fmWith [] [.bytes [0xC0]]).bus.reads = .bytes [0xC0] :: [] ∧
    (0xC0 : Byte).getLsbD 7 = true := by decide

/-- Where CTS has been seen, and where it has not. -/
theorem witness_SetPropertyRuns :
    (fmWith [.ok] [.bytes [0x80]]).busy = false ∧ (fmWith [.ok] [.bytes [0x80]]).wstate = .idle ∧
    (fmWith [.ok] [.bytes [0x80]]).addr = some 0x63 ∧ (fmWith [.ok] [.bytes [0x80]]).bus.writes = .ok :: [] ∧
    (fmWith [.ok] [.bytes [0x80]]).ctsSeen = true ∧ (fmWith [.ok] [.bytes [0x80]]).bus.reads = .bytes [0x80] :: [] ∧
    (0x80 : Byte).getLsbD 7 = true ∧ (0x4000 ≠ (0x4000 : Half) ∨ (63 : Half) ≤ 63) ∧
    (withAnswers [.ok] [.bytes [0x80], .bytes [0xC0]] [] unready).ctsSeen = false ∧
    (withAnswers [.ok] [.bytes [0x80], .bytes [0xC0]] [] unready).bus.reads =
      .bytes [0x80] :: .bytes [0xC0] :: [] := by decide

/-- The three writes and reads of POWER_UP, with either oscillator. -/
theorem witness_PowerUpRuns :
    let s := fmWith [.ok, .ok, .ok] [.bytes [0x80], .bytes [0xC0], .bytes [0x80]]
    s.busy = false ∧ s.wstate = .idle ∧ s.addr = some 0x63 ∧ s.ctsSeen = true ∧ s.cfg.oscSource ≤ 1 ∧
    { s with cfg := { Cfg.reset with oscSource := 1 } }.cfg.oscSource ≤ 1 ∧
    s.bus.writes = .ok :: .ok :: .ok :: [] ∧
    s.bus.reads = .bytes [0x80] :: .bytes [0xC0] :: .bytes [0x80] :: [] ∧
    (0x80 : Byte).getLsbD 7 = true ∧ (0xC0 : Byte).getLsbD 7 = true := by decide

theorem witness_PowerUpSecondWriteFails :
    let s := fmWith [.ok, .busErr] [.bytes [0x80]]
    s.busy = false ∧ s.wstate = .idle ∧ s.addr = some 0x63 ∧ s.ctsSeen = true ∧
    s.bus.writes = .ok :: .busErr :: [] ∧ s.bus.reads = .bytes [0x80] :: [] ∧ (0x80 : Byte).getLsbD 7 = true := by decide

theorem witness_PowerDownRuns :
    (fmWith [.ok] []).busy = false ∧ (fmWith [.ok] []).wstate = .idle ∧ (fmWith [.ok] []).addr = some 0x63 ∧
    (fmWith [.ok] []).ctsSeen = true ∧ (fmWith [.ok] []).bus.writes = .ok :: [] := by decide

/-- In each mode: complete at the first poll, and at the second. -/
theorem witness_TuningRequestsRun :
    let s := fmWith [.ok] [.bytes [0x81], .bytes [0x80]]
    let t := amWith [.ok, .ok] [.bytes [0x80], .bytes [0x81], .bytes [0x80]]
    (s.busy = false ∧ s.wstate = .idle ∧ s.mode = some .fm ∧ s.addr = some 0x63 ∧ s.ctsSeen = true ∧
      s.cfg.bandLoFm ≤ 10110 ∧ (10110 : Half) ≤ s.cfg.bandHiFm ∧ s.bus.writes = .ok :: [] ∧
      s.bus.reads = .bytes [0x81] :: .bytes [0x80] :: []) ∧
    (t.busy = false ∧ t.wstate = .idle ∧ t.mode = some .am ∧ t.addr = some 0x63 ∧ t.ctsSeen = true ∧
      t.cfg.bandLoAm ≤ 1710 ∧ (1710 : Half) ≤ t.cfg.bandHiAm ∧ t.bus.writes = .ok :: .ok :: [] ∧
      t.bus.reads = .bytes [0x80] :: .bytes [0x81] :: .bytes [0x80] :: [] ∧ 2 ≤ t.cfg.stcMaxAttempts) ∧
    (0x81 : Byte).getLsbD 7 = true ∧ (0x81 : Byte).getLsbD 0 = true ∧ (0x80 : Byte).getLsbD 7 = true ∧
    (0x80 : Byte).getLsbD 0 = false := by decide

/-- A poll and a record of the right length, in each mode. -/
theorem witness_QueriesRun :
    let r : List Byte := [0x80, 0x01, 0x27, 0x7E, 0x2A, 0x14, 0x00]
    let s := fmWith [.ok] [.bytes [0x80], .bytes r]
    s.busy = false ∧ s.wstate = .idle ∧ s.mode = some .fm ∧ (amWith [] []).mode = some .am ∧ s.addr = some 0x63 ∧
    s.ctsSeen = true ∧ s.bus.writes = .ok :: [] ∧ s.bus.reads = .bytes [0x80] :: .bytes r :: [] ∧
    (0x80 : Byte).getLsbD 7 = true ∧ r.length = 7 ∧ ([0x81] : List Byte).length = 1 ∧
    ([0x80, 0, 0, 63] : List Byte).length = 4 ∧ (List.replicate 14 (0 : Byte)).length = 14 := by decide

theorem witness_CurReqIsNeverRead :
    (running [.invMode] (ready none)).busy = true ∧ stepsTo (running [.invMode] (ready none)) (·.busy) = true ∧
    (ready none).busy = false ∧ exec .getRevision (ready none) =
      .next (accept 0xA000000000000000 (.ok (queryProgram revisionFrame 14 .revision)) (ready none)) :=
  ⟨rfl, by decide, rfl, rfl⟩

/-- Address known; a scan with both, with the second alone, with neither; a failed scan. -/
theorem witness_ResolveAddressRuns :
    (ready none).busy = false ∧ (ready none).wstate = .idle ∧ (ready none).addr = some 0x63 ∧
    State.reset.addr = none ∧ (0x11 : Addr) ∈ ([0x63, 0x11] : List Addr) ∧ (0x11 : Addr) ∉ ([0x63] : List Addr) ∧
    (0x63 : Addr) ∈ ([0x63] : List Addr) ∧ (0x63 : Addr) ∉ ([0x50] : List Addr) ∧
    (withAnswers [] [] [.found [0x63, 0x11]] State.reset).bus.scans = .found [0x63, 0x11] :: [] ∧
    (withAnswers [] [] [.busErr] State.reset).bus.scans = .busErr :: [] := by decide

/-- The highest index and the first that does not exist; the lowest attempt limit and zero; OSC_SOURCE 1 and 2. -/
theorem witness_ConfigWriteAllOrNothing :
    State.reset.busy = false ∧ State.reset.wstate = .idle ∧ (0x0D : Byte) ≤ 0x0D ∧ ¬((0x0D : Byte) ≤ 0x0C) ∧
    (((0x00 : Byte) = 0x00 ∨ (0x00 : Byte) = 0x01) ∧ (0 : Half) = 0) ∧ ((0x07 : Byte) = 0x07 ∧ (1 : Half) < 2) ∧
    ¬((0x0D : Byte) ≤ 0x07 ∨ (((0x07 : Byte) = 0x00 ∨ (0x07 : Byte) = 0x01) ∧ (1 : Half) = 0) ∨
      ((0x07 : Byte) = 0x07 ∧ (1 : Half) < 1)) := by decide

theorem witness_NoteChipResetRuns :
    (ready (some .fm)).busy = false ∧ (ready (some .fm)).wstate = .idle ∧ (ready (some .fm)).mode = some .fm ∧
    (ready (some .fm)).ctsSeen = true := by decide

theorem witness_NormalCompletion :
    (running [] (ready none)).busy = true ∧ (running [] (ready none)).wstate = .idle ∧
    (running [] (ready none)).seq = [] ∧ ({ running [] (ready none) with errSeen := true } : State).errSeen = true := by
  decide

/-- A request that a failed write ends, and one that ran to its end. -/
theorem witness_AbnormalCompletion :
    (running [.wr [0x14], .waitCts] (fmWith [.busErr] [])).busy = true ∧
    stepsTo (running [.wr [0x14], .waitCts] (fmWith [.busErr] []))
      (fun t => !t.busy && t.resultCode == .busError) = true ∧
    stepsTo (running [] (ready none)) (fun t => !t.busy && t.resultCode == .ok) = true := by decide

theorem witness_OnlyIdleStops :
    (State.reset.busy = false ∧ State.reset.port = []) ∧
    ¬((running [] State.reset).busy = false ∧ (running [] State.reset).port = []) := by decide

theorem witness_AddressIsImmutable :
    (ready none).addr = some 0x63 ∧ stepsTo (running [.resolve] (ready none)) (·.addr == some 0x63) = true ∧
    State.reset.addr = none ∧
    stepsTo (running [.resolve] (withAnswers [] [] [.found [0x11]] State.reset)) (·.addr != none) = true := by decide

theorem witness_ModeWriters :
    stepsTo (running [.invMode] (ready (some .fm))) (·.mode != some .fm) = true ∧
    stepsTo (running [.noteReset] (ready (some .fm))) (·.mode != some .fm) = true ∧
    stepsTo (running [.commit .am] (ready none)) (·.mode != none) = true := by decide

theorem witness_CfgWriters :
    stepsTo (running [.cfgWrite .maxAttempts 1] State.reset) (fun t => t.cfg.maxAttempts != Cfg.reset.maxAttempts) = true := by
  decide

/-- A read that is observed; a failed read and a step that writes neither; a write; NOTE_CHIP_RESET. -/
theorem witness_StatusWriters :
    stepsTo (polling .cts 0 (fmWith [] [.bytes [0x81, 0x00]])) (fun t => t.lastStatus == 0x00 && t.ctsSeen) = true ∧
    stepsTo (polling .cts 0 (fmWith [] [.bytes [0x81]])) (·.lastStatus == 0x81) = true ∧
    stepsTo (running [.settle 1] (ready none)) (·.ctsSeen) = true ∧
    stepsTo (running [.wr [0x14]] (fmWith [.ok] [])) (!·.ctsSeen) = true ∧
    stepsTo (running [.noteReset] (ready none)) (!·.ctsSeen) = true := by decide

/-- A step that writes no result; an acceptance; a record stored. -/
theorem witness_ResultWriters :
    stepsTo (running [.settle 1] (ready none)) (·.resultKind == .none) = true ∧
    stepsTo { ready none with port := [0x7000000000000000], resultKind := .status } (·.resultKind == .none) = true ∧
    stepsTo (running [.rd 1 .status] (fmWith [] [.bytes [0x81]])) (·.resultKind == .status) = true := by decide

theorem witness_AtMostOneEventPerStep :
    stepsTo { ready none with port := [0x7000000000000000] } (·.trace.isEmpty) = true ∧
    stepsTo (running [.settle 1] (ready none)) (·.trace == [.delay 1]) = true := by decide

/-- A GET_STATUS about to write its frame. -/
def midway : State := running [.wr [0x14], .waitCts, .rd 1 .status] (fmWith [.ok] [.bytes [0x80], .bytes [0x81]])

theorem witness_StepKeepsIdleInv :
    IdleInv { ready none with port := [0x7000000000000000] } ∧
    stepsTo { ready none with port := [0x7000000000000000] } (·.busy) = true :=
  ⟨fun _ => ⟨rfl, rfl⟩, by decide⟩

theorem witness_StepKeepsAddrInv : AddrInv midway ∧ stepsTo midway (·.trace.length == 1) = true :=
  ⟨⟨fun a h => by injection h with h; subst h; decide, by decide⟩, by decide⟩

theorem witness_StepKeepsWaitInv :
    WaitInv (polling .cts 49 (fmWith [] [.bytes [0x80]])) ∧
    stepsTo (polling .cts 49 (fmWith [] [.bytes [0x80]])) (·.attempts == 50) = true :=
  ⟨⟨by decide, by decide, by decide⟩, by decide⟩

theorem witness_StepKeepsResultInv :
    ResultInv (running [.rd 1 .status] (fmWith [] [.bytes [0x81]])) ∧
    stepsTo (running [.rd 1 .status] (fmWith [] [.bytes [0x81]])) (·.resultLen == 1) = true :=
  ⟨⟨by decide, by decide, by decide, by decide⟩, by decide⟩

theorem witness_StepKeepsFrameInv : FrameInv midway ∧ stepsTo midway (·.trace.length == 1) = true :=
  ⟨⟨by decide, fun _ _ _ h => nomatch h⟩, by decide⟩

theorem witness_StepKeepsReadyInv :
    ReadyInv (polling .cts 0 (withAnswers [] [.bytes [0x80]] [] unready)) ∧
    stepsTo (polling .cts 0 (withAnswers [] [.bytes [0x80]] [] unready)) (·.ctsSeen) = true :=
  ⟨⟨by decide, by decide, by decide⟩, by decide⟩

/-- A step of a run after reset; NOTE_CHIP_RESET about to run in a state that keeps the readiness invariant. -/
theorem witness_ReadinessOnTheTrace :
    (∃ t, runSteps 1 (bootWith [0xD000000000000000] Transport.fresh) = .next t) ∧
    ReadyInv (running [.noteReset] State.reset) ∧ AtMicro .noteReset [] (running [.noteReset] State.reset) ∧
    (∃ r, step (running [.noteReset] State.reset) = .next r ∧ ∃ t, runSteps 1 r = .next t) :=
  ⟨⟨_, rfl⟩, ⟨by decide, by decide, by decide⟩, ⟨rfl, rfl, rfl⟩, ⟨_, rfl, _, rfl⟩⟩

theorem witness_EveryRequestEnds : (polling .stc 0xFFFF (ready none)).busy = true := by decide

/-- The first number that does not fit and the last that does, for 16 bits and for a CFG index, and a CFG name. -/
theorem witness_AssemblerRefusesWideNumbers :
    parseNumber "65536" = some 65536 ∧ parseNumber "0xFFFF" = some 65535 ∧ parseNumber "0xfffF" = some 65535 ∧
    parseNumber "256" = some 256 ∧ parseNumber "0xFF" = some 255 ∧ 65536 ≤ 65536 ∧ 65535 < 65536 ∧ 256 ≤ 256 ∧
    255 < 256 ∧ ("SETTLE_DOWN_MS", 0x0C) ∈ ([("SETTLE_DOWN_MS", 0x0C)] : List (String × Byte)) := by decide

/-- A short property response; a volume at the limit and one past it; a tune at a band's limit in each mode; a frame; a
scan that shows the second address alone; a poll of an STC wait, and its GET_INT_STATUS. -/
theorem witness_ParametersAreArguments :
    let s := fmWith [.ok] [.bytes [0x80], .bytes [0x80, 0x00, 0x3F]]
    let r := running [.resolve] (withAnswers [] [] [.found [0x63]] State.reset)
    (s.busy = false ∧ s.wstate = .idle ∧ s.addr = some 0x63 ∧ s.ctsSeen = true ∧ s.bus.writes = .ok :: [] ∧
      s.bus.reads = .bytes [0x80] :: .bytes [0x80, 0x00, 0x3F] :: [] ∧ (0x80 : Byte).getLsbD 7 = true ∧
      shortProperty.getPropLen = 3 ∧ ([0x80, 0x00, 0x3F] : List Byte).length = 3) ∧
    ((0x4000 : Half) = shortProperty.propRxVolume ∧ shortProperty.volumeMax < 64 ∧ (63 : Half) ≤ shortProperty.volumeMax) ∧
    (s.mode = some .fm ∧ s.cfg.bandLoFm ≤ 6400 ∧ (6400 : Half) ≤ s.cfg.bandHiFm ∧ (amWith [] []).mode = some .am ∧
      (amWith [] []).cfg.bandLoAm ≤ 1710 ∧ (1710 : Half) ≤ (amWith [] []).cfg.bandHiAm) ∧
    (s.bus.nextWrite = .ok ∧ encode .wireGetRev shortProperty = .frame [0x10]) ∧
    AtMicro (.wr [0x10]) [] (running [.wr [0x10]] s) ∧
    (AtMicro .resolve [] r ∧ r.addr = none ∧ r.bus.nextScan = .found [0x63] ∧
      shortProperty.legalAddrs = [0x11] ++ 0x63 :: [] ∧ (0x63 : Addr) ∈ ([0x63] : List Addr) ∧
      ∀ b, b ∈ ([0x11] : List Addr) → b ∉ ([0x63] : List Addr)) ∧
    ((polling .stc 1 s).busy = true ∧ (polling .stc 1 s).wstate = .poll ∧ (polling .stc 1 s).wkind = .stc ∧
      (polling .stc 1 s).addr = some 0x63 ∧ (polling .stc 1 s).ctsSeen = true ∧
      (polling .stc 1 unready).ctsSeen = false ∧
      (withAnswers [] [.bytes [0x81]] [] unready).bus.nextRead = .bytes [0x81]) :=
  ⟨by decide, by decide, by decide, by decide, ⟨rfl, rfl, rfl⟩, ⟨⟨rfl, rfl, rfl⟩, by decide⟩, by decide⟩

end Sys2Proof.Tests
end

/-! PROOF. What the machine does with any parameters (00_scope.md R8): the acceptance of each request, the micro-operations
of a query, and the run of a query from its acceptance to its end.  After them, O60. -/

namespace Sys2Proof.Machine

/-! ## Acceptance where BUSY = 0 (R31, R212) -/

/-- The checks passed: the request is accepted with its program. -/
theorem present_ok {s : State} (hb : s.busy = false) (w : ReqWord) (q : List MicroOp) :
    present w (.ok q) s = acceptedWith w q s := by
  simp [present, hb, accept, latch, acceptedWith]

/-- A check failed: the request is accepted and ends with the check's code. -/
theorem present_error {s : State} (hb : s.busy = false) (w : ReqWord) (c : ResultCode) :
    present w (.error c) s = rejectedWith w c s := by
  simp [present, hb, accept, latch, finish, rejectedWith]

/-- Where ADDR is valid, check 2 passes. -/
theorem needAddr_some {s : State} {a : Addr} (ha : s.addr = some a) (c : Except ResultCode (List MicroOp)) :
    needAddr s c = c := by
  simp [needAddr, ha]

/-- Where MODE is valid, check 3 passes, and the rest depends on MODE. -/
theorem needMode_some {s : State} {m : Mode} (hm : s.mode = some m) (c : Mode → Except ResultCode (List MicroOp)) :
    needMode s c = c m := by
  simp [needMode, hm]

/-- The range of SET_PROPERTY: only a volume above the limit is refused (R114). -/
theorem propertyLegal_iff (x v : Half) (p : Params) :
    propertyLegal x v p = true ↔ x ≠ p.propRxVolume ∨ v ≤ p.volumeMax := by
  simp [propertyLegal]

/-- The range of TUNE, by mode (R115). -/
theorem bandLegal_iff (c : Cfg) (m : Mode) (f : Half) : bandLegal c m f = true ↔ bandLo c m ≤ f ∧ f ≤ bandHi c m := by
  simp [bandLegal]

/-- The settling delay of POWER_UP (R100). -/
theorem settleUp_eq (c : Cfg) : settleUp c = if c.oscSource = 1 then c.settleUpXtalMs else c.settleUpExtMs := by
  simp [settleUp]

section Acceptance

/-! What each request that needs an address is accepted with, for any parameters (R100 to R110): the legal operands, and
for SET_PROPERTY the illegal ones. -/

variable (p : Params) {s : State} {a : Addr} (hb : s.busy = false) (ha : s.addr = some a)
include hb ha

/-- A request that needs an address and no more is accepted with its program. -/
theorem present_needAddr (w : ReqWord) (q : List MicroOp) :
    present w (needAddr s (.ok q)) s = acceptedWith w q s := by
  rw [needAddr_some ha, present_ok hb]

/-- A request that needs an address and a mode is accepted with its program for MODE. -/
theorem present_needMode {m : Mode} (hm : s.mode = some m) (w : ReqWord) (q : Mode → List MicroOp) :
    present w (needAddr s (needMode s fun m => .ok (q m))) s = acceptedWith w (q m) s := by
  rw [needAddr_some ha, needMode_some hm, present_ok hb]

theorem execWith_powerUp (m : Mode) : execWith p (.powerUp m) s =
    .next (acceptedWith (Instr.powerUp m).word (powerUpProgram m s.cfg p) s) :=
  congrArg _ (present_needAddr hb ha _ _)

theorem execWith_powerDown : execWith p .powerDown s =
    .next (acceptedWith Instr.powerDown.word (powerDownProgram s.cfg p) s) :=
  congrArg _ (present_needAddr hb ha _ _)

theorem execWith_getProperty (x : Half) : execWith p (.getProperty x) s =
    .next (acceptedWith (Instr.getProperty x).word (queryProgram (getPropertyFrame x p) p.getPropLen .property) s) :=
  congrArg _ (present_needAddr hb ha _ _)

theorem execWith_getStatus : execWith p .getStatus s =
    .next (acceptedWith Instr.getStatus.word (queryProgram (getIntStatusFrame p) p.lenStatus .status) s) :=
  congrArg _ (present_needAddr hb ha _ _)

theorem execWith_getRevision : execWith p .getRevision s =
    .next (acceptedWith Instr.getRevision.word (queryProgram (revisionFrame p) p.lenRevision .revision) s) :=
  congrArg _ (present_needAddr hb ha _ _)

theorem execWith_getRevisionLong : execWith p .getRevisionLong s =
    .next (acceptedWith Instr.getRevisionLong.word (queryProgram (revisionFrame p) p.lenRevision .revision) s) :=
  congrArg _ (present_needAddr hb ha _ _)

theorem execWith_setProperty_legal {x v : Half} (h : propertyLegal x v p = true) : execWith p (.setProperty x v) s =
    .next (acceptedWith (Instr.setProperty x v).word (setPropertyProgram x v p) s) := by
  simp only [execWith, execSetProperty, needLegal, h, if_true, present_needAddr hb ha]

theorem execWith_setProperty_illegal {x v : Half} (h : propertyLegal x v p = false) : execWith p (.setProperty x v) s =
    .next (rejectedWith (Instr.setProperty x v).word .invalidArgument s) := by
  simp [execWith, execSetProperty, needLegal, h, needAddr_some ha, present_error hb]

theorem execWith_tune_legal {m : Mode} {f : Half} (hm : s.mode = some m) (h : bandLegal s.cfg m f = true) :
    execWith p (.tune f) s =
      .next (acceptedWith (Instr.tune f).word (tuningProgram (tuneFrame m f p)) s) := by
  simp [execWith, execTune, needLegal, h, needAddr_some ha, needMode_some hm, present_ok hb]

theorem execWith_seekStart {m : Mode} (hm : s.mode = some m) (y z : Bool) : execWith p (.seekStart y z) s =
    .next (acceptedWith (Instr.seekStart y z).word (tuningProgram (seekFrame m y z p)) s) :=
  congrArg _ (present_needMode hb ha hm _ _)

theorem execWith_getTuneStatus {m : Mode} (hm : s.mode = some m) (y z : Bool) : execWith p (.getTuneStatus y z) s =
    .next (acceptedWith (Instr.getTuneStatus y z).word
      (queryProgram (tuneStatusFrame m y z p) p.lenTuneStatus (tuneStatusKind m)) s) :=
  congrArg _ (present_needMode hb ha hm _ _)

theorem execWith_getRsqStatus {m : Mode} (hm : s.mode = some m) (z : Bool) : execWith p (.getRsqStatus z) s =
    .next (acceptedWith (Instr.getRsqStatus z).word
      (queryProgram (rsqStatusFrame m z p) p.lenRsqStatus (rsqStatusKind m)) s) :=
  congrArg _ (present_needMode hb ha hm _ _)

end Acceptance

/-! ## One event (R55, R150, R171, R191) -/

/-- A frame that is written: the event, CTS_SEEN cleared, the answer used. -/
theorem wr_ok {s : State} {a : Addr} (ha : s.addr = some a) (hw : s.bus.nextWrite = .ok) (f : List Byte) :
    wr f s = { s with trace := s.trace ++ [.write a f .ok], ctsSeen := false, bus := s.bus.afterWrite } := by
  simp [wr, ha, hw, busWrite, emit]

/-- A poll that one byte answers. -/
theorem poll_byte {s : State} {a : Addr} {b : Byte} (ha : s.addr = some a) (hr : s.bus.nextRead = .bytes [b])
    (p : Params) : poll s p = polled b (busRead a 1 s) p := by
  simp [poll, ha, hr]

/-- A poll ends its wait and lets the program go on exactly where the byte meets the wait's condition (R175). -/
theorem polled_succeeds_iff {s : State} (hb : s.busy = true) (b : Byte) (p : Params) :
    ((polled b s p).busy = true ∧ (polled b s p).wstate = .idle) ↔ waitDone s.wkind b p = true := by
  rcases polled_cases b s p with ⟨hd, e⟩ | ⟨hd, -, e⟩ | ⟨hd, -, e⟩ <;> simp [e, hd, hb]

/-- A response of the right length: the event, the record stored, its byte 0 observed. -/
theorem rd_ok {s : State} {a : Addr} {r : List Byte} (ha : s.addr = some a) (hr : s.bus.nextRead = .bytes r) (k : Kind) :
    rd r.length k s = storeRecord r.length k r (busRead a r.length s) := by
  simp [rd, ha, hr]

/-- A scan resolves to the first legal address it found (R57, R191). -/
theorem pickAddr_first {p : Params} {l before after : List Addr} {a : Addr} (hp : p.legalAddrs = before ++ a :: after)
    (ha : a ∈ l) (hn : ∀ b, b ∈ before → b ∉ l) : pickAddr l p = some a := by
  simp only [pickAddr, List.find?_eq_some_iff_append]
  exact ⟨by simpa using ha, before, after, hp, by simpa using hn⟩

/-- The program of RESOLVE_ADDRESS where ADDR is not valid and the scan shows a legal address. -/
theorem resolve_found {s : State} {p : Params} {l : List Addr} {a : Addr} (hn : s.addr = none)
    (hs : s.bus.nextScan = .found l) (hp : pickAddr l p = some a) :
    resolve s p = { s with
      addr := some a, trace := s.trace ++ [.scan (canonScan (.found l))], bus := s.bus.afterScan } := by
  simp [resolve, hn, hs, hp, busScan, emit]

/-- An STC wait that has not seen CTS polls at once (R172). -/
theorem waitStep_stc_unseen {s : State} (hw : s.wstate = .poll) (hk : s.wkind = .stc) (hc : s.ctsSeen = false)
    (p : Params) : waitStep s p = poll s p := by
  simp [waitStep, pollStep, hw, hk, hc]

/-- An STC wait that has seen CTS sends GET_INT_STATUS (R172). -/
theorem waitStep_stc_seen {s : State} (hw : s.wstate = .poll) (hk : s.wkind = .stc) (hc : s.ctsSeen = true)
    (p : Params) : waitStep s p = wr (getIntStatusFrame p) s := by
  simp [waitStep, pollStep, hw, hk, hc]

/-- A CTS wait whose first poll shows CTS ends in the step it starts in (R171). -/
theorem startWait_cts_shown {s : State} {a : Addr} {b : Byte} (ha : s.addr = some a)
    (hr : s.bus.nextRead = .bytes [b]) (h7 : b.getLsbD 7 = true) (p : Params) :
    startWait .cts s p = { s with
      wkind := .cts, attempts := 1, wstate := .idle, lastStatus := b, ctsSeen := true,
      errSeen := s.errSeen || b.getLsbD 6, trace := s.trace ++ [.read a 1 (.bytes [b])], bus := s.bus.afterRead } := by
  have h6 : errCounts b = b.getLsbD 6 := by simp only [errCounts, statusCts, statusErr, h7, Bool.true_and]
  have hd : waitDone .cts b p = true := h7
  refine (poll_byte (s := { s with wkind := .cts, attempts := 0, wstate := .poll }) ha hr p).trans ?_
  rw [polled, busRead_wkind, if_pos hd]
  simp only [observe, h6, statusCts, h7, busRead, emit, hr]
  rfl

/-! ## One micro-operation (R174, R196, R197) -/

section Micro

variable {p : Params} {s : State} {a : Addr} {rest : List MicroOp}

/-- The step of the head micro-operation. -/
theorem stepWith_atMicro {m : MicroOp} (h : AtMicro m rest s) :
    stepWith p s = .next (runMicro m { s with seq := rest } p) :=
  have ⟨hb, hw, hs⟩ := h
  stepWith_micro p hb hw hs

/-- PRE where CTS has been seen makes no event. -/
theorem stepWith_pre_seen (h : AtMicro .pre rest s) (hc : s.ctsSeen = true) :
    stepWith p s = .next { s with seq := rest } := by
  simp [stepWith_atMicro h, runMicro, pre, hc]

/-- A WR that the bus answers Ok. -/
theorem stepWith_wr_ok {f : List Byte} (h : AtMicro (.wr f) rest s) (ha : s.addr = some a)
    (hw : s.bus.nextWrite = .ok) :
    stepWith p s = .next { s with
      seq := rest, trace := s.trace ++ [.write a f .ok], ctsSeen := false, bus := s.bus.afterWrite } :=
  (stepWith_atMicro h).trans (congrArg _ (wr_ok (s := { s with seq := rest }) ha hw f))

/-- A WAIT_CTS whose first poll shows CTS. -/
theorem stepWith_waitCts_shown {b : Byte} (h : AtMicro .waitCts rest s) (ha : s.addr = some a)
    (hr : s.bus.nextRead = .bytes [b]) (h7 : b.getLsbD 7 = true) :
    stepWith p s = .next { s with
      seq := rest, wkind := .cts, attempts := 1, wstate := .idle, lastStatus := b, ctsSeen := true,
      errSeen := s.errSeen || b.getLsbD 6, trace := s.trace ++ [.read a 1 (.bytes [b])], bus := s.bus.afterRead } :=
  (stepWith_atMicro h).trans (congrArg _ (startWait_cts_shown (s := { s with seq := rest }) ha hr h7 p))

/-- A RD whose response has the right length. -/
theorem stepWith_rd_ok {r : List Byte} {k : Kind} (h : AtMicro (.rd r.length k) rest s) (ha : s.addr = some a)
    (hr : s.bus.nextRead = .bytes r) :
    stepWith p s = .next (storeRecord r.length k r (busRead a r.length { s with seq := rest })) :=
  (stepWith_atMicro h).trans (congrArg _ (rd_ok (s := { s with seq := rest }) ha hr k))

/-- RESOLVE_ADDRESS's scan that shows a legal address. -/
theorem stepWith_resolve_found {l : List Addr} (h : AtMicro .resolve rest s) (hn : s.addr = none)
    (hs : s.bus.nextScan = .found l) (hp : pickAddr l p = some a) :
    stepWith p s = .next { s with
      seq := rest, addr := some a, trace := s.trace ++ [.scan (canonScan (.found l))], bus := s.bus.afterScan } :=
  (stepWith_atMicro h).trans (congrArg _ (resolve_found (s := { s with seq := rest }) hn hs hp))

end Micro

/-! ## The run of a query (R103, R106 to R110, R197) -/

/-- A run of no step. -/
theorem runStepsWith_zero (p : Params) (s : State) : runStepsWith p 0 s = .next s := rfl

/-- A run of one step more, by its first step. -/
theorem runStepsWith_succ {p : Params} {n : Nat} {s t : State} (h : stepWith p s = .next t) :
    runStepsWith p (n + 1) s = runStepsWith p n t := by
  simp only [runStepsWith, Host.Core.run, coreWith, h]

/-- A query sent at once, its frame written, CTS shown by the first poll and a record of the right length read, ends with
the record stored, whatever the parameters are. -/
theorem run_queryProgram (p : Params) {s : State} {a : Addr} {b : Byte} {r : List Byte} {ws : List WriteAnswer}
    {rs : List ReadAnswer} (hi : s.wstate = .idle) (ha : s.addr = some a) (hc : s.ctsSeen = true)
    (hw : s.bus.writes = .ok :: ws) (hr : s.bus.reads = .bytes [b] :: .bytes r :: rs) (h7 : b.getLsbD 7 = true)
    {n : Nat} (hn : r.length = n) (w : ReqWord) (f : List Byte) (k : Kind) :
    runStepsWith p 5 (acceptedWith w (queryProgram f n k) s) = .next
      { endedWith w (b.getLsbD 6 || ((byteAt r 0).getLsbD 7 && (byteAt r 0).getLsbD 6)) s with
        trace := s.trace ++ [.write a f .ok, .read a 1 (.bytes [b]), .read a n (.bytes r)]
        lastStatus := byteAt r 0
        ctsSeen := (byteAt r 0).getLsbD 7
        resultKind := k
        resultLen := BitVec.ofNat 5 n
        resultBytes := padRecord r
        wkind := .cts
        attempts := 1
        bus := { s.bus with writes := ws, reads := rs } } := by
  subst hn
  have hnw : s.bus.nextWrite = .ok := by simp [Transport.nextWrite, hw]
  have hnr : s.bus.afterWrite.nextRead = .bytes [b] := by simp [Transport.afterWrite, Transport.nextRead, hw, hr]
  have hnr' : s.bus.afterWrite.afterRead.nextRead = .bytes r := by
    simp [Transport.afterWrite, Transport.afterRead, Transport.nextRead, hw, hr]
  have hbus : s.bus.afterWrite.afterRead.afterRead = { s.bus with writes := ws, reads := rs } := by
    simp [Transport.afterWrite, Transport.afterRead, hw, hr]
  -- The five steps of R197: PRE, WR, WAIT_CTS, RD and the final `finish`.
  refine Eq.trans (runStepsWith_succ (stepWith_pre_seen ⟨rfl, hi, rfl⟩ hc)) ?_
  refine Eq.trans (runStepsWith_succ (stepWith_wr_ok ⟨rfl, hi, rfl⟩ ha hnw)) ?_
  refine Eq.trans (runStepsWith_succ (stepWith_waitCts_shown ⟨rfl, hi, rfl⟩ ha hnr h7)) ?_
  refine Eq.trans (runStepsWith_succ (stepWith_rd_ok ⟨rfl, rfl, rfl⟩ ha hnr')) ?_
  refine Eq.trans (runStepsWith_succ (stepWith_done p rfl rfl rfl)) ?_
  simp [runStepsWith_zero, complete, finish, storeRecord, observe, busRead, emit, hnr', hbus, endedWith, acceptedWith,
    endCode, errCounts, statusCts, statusErr]

/-! ## The stored record (R30, R150, R153) -/

/-- The bytes of a stored record of at most 14 bytes are the bytes that were read. -/
theorem recordBytes_of_padRecord {s : State} {r : List Byte} (h : r.length ≤ 14)
    (hl : s.resultLen = BitVec.ofNat 5 r.length) (hr : s.resultBytes = padRecord r) : s.recordBytes = r := by
  have hn : (BitVec.ofNat 5 r.length).toNat = r.length := by simp; omega
  rw [State.recordBytes, hl, hr, hn]
  refine List.ext_getElem (by simpa using h) fun i hi hi' => ?_
  simp [padRecord, byteAt, hi']

/-- A stored PROPERTY record with `P_GETPROP_LEN` = 3 has no value field (R153). -/
theorem record_property_three {p : Params} {s : State} {r : List Byte} (hp : p.getPropLen = 3)
    (hk : s.resultKind = .property) (hr : s.recordBytes = r) (hl : r.length = 3) :
    s.record p = .ok (.propertyShort (decodeStatus (byteAt r 0) p) (byteAt r 1) (byteAt r 2)) := by
  simp [State.record, hk, hr, parse, Kind.len, recordOf, parseProperty, hp, hl]

/-! ## The meaning of a wire frame (R80, R81) -/

/-- An instruction whose encoding is a frame is a wire frame, and its meaning is the WR of that frame. -/
theorem execWith_of_encode {p : Params} {i : Instr} {f : List Byte} (h : encode i p = .frame f) (s : State) :
    execWith p i s = .next (wr f s) := by
  have hi : i.isRequest = false := by cases i <;> simp [encode, Instr.isRequest] at h ⊢
  rw [execWith_wire hi, Instr.frameBytes, h]

/-! ## The parameters (R8) -/

/-- Block reset takes the parameters' settling delays, and no other parameter enters it (R24, R36). -/
theorem resetWith_eq (p : Params) : State.resetWith p = { State.reset with
    cfg := { State.reset.cfg with
      settleUpExtMs := p.settleUpExt, settleUpXtalMs := p.settleUpXtal, settleDownMs := p.settleDown } } := rfl

/-- The poll of an STC wait that has not seen CTS succeeds exactly where the byte has CTS and the parameters' STC bit
(R89, R172). -/
theorem stepWith_stc_poll (p : Params) {s : State} {a : Addr} {b : Byte} (hb : s.busy = true) (hw : s.wstate = .poll)
    (hk : s.wkind = .stc) (ha : s.addr = some a) (hc : s.ctsSeen = false) (hr : s.bus.nextRead = .bytes [b]) :
    ∃ t, stepWith p s = .next t ∧
      ((t.busy = true ∧ t.wstate = .idle) ↔ (b.getLsbD 7 = true ∧ b.getLsbD p.stcBit = true)) := by
  refine ⟨polled b (busRead a 1 s) p, ?_, ?_⟩
  · rw [stepWith_wait p hb (by simp [hw]), waitStep_stc_unseen hw hk hc, poll_byte ha hr]
  · rw [polled_succeeds_iff (s := busRead a 1 s) hb, busRead_wkind, hk, waitDone, Bool.and_eq_true, statusCts, statusStc]

/-- An STC wait that has seen CTS writes the parameters' GET_INT_STATUS (R172). -/
theorem stepWith_stc_write (p : Params) {s : State} {a : Addr} (hb : s.busy = true) (hw : s.wstate = .poll)
    (hk : s.wkind = .stc) (ha : s.addr = some a) (hc : s.ctsSeen = true) (hn : s.bus.nextWrite = .ok) :
    stepWith p s = .next { s with
      trace := s.trace ++ [.write a [p.wireOp .getIntStatus] .ok], ctsSeen := false, bus := s.bus.afterWrite } := by
  rw [stepWith_wait p hb (by simp [hw]), waitStep_stc_seen hw hk hc, wr_ok ha hn, getIntStatusFrame]

/-- A three-byte GET_PROPERTY, from its acceptance to the record the host reads (R103, R153). -/
theorem getProperty_three_runs {p : Params} {s : State} {a : Addr} {b : Byte} {r : List Byte} {ws : List WriteAnswer}
    {rs : List ReadAnswer} (x : Half) (hb : s.busy = false) (hi : s.wstate = .idle) (ha : s.addr = some a)
    (hc : s.ctsSeen = true) (hw : s.bus.writes = .ok :: ws) (hr : s.bus.reads = .bytes [b] :: .bytes r :: rs)
    (h7 : b.getLsbD 7 = true) (hp : p.getPropLen = 3) (hl : r.length = 3) :
    ∃ s1 t, execWith p (.getProperty x) s = .next s1 ∧ runStepsWith p 5 s1 = .next t ∧ t.busy = false ∧
      (t.resultCode = .ok ∨ t.resultCode = .chipError) ∧
      t.trace = s.trace ++ [.write a (getPropertyFrame x p) .ok, .read a 1 (.bytes [b]), .read a 3 (.bytes r)] ∧
      t.resultKind = .property ∧ t.resultLen = 3 ∧ t.recordBytes = r ∧
      t.record p = .ok (.propertyShort (decodeStatus (byteAt r 0) p) (byteAt r 1) (byteAt r 2)) := by
  have hexec := execWith_getProperty p hb ha x
  rw [hp] at hexec
  have hbytes {t : State} (h3 : t.resultLen = 3) (hpad : t.resultBytes = padRecord r) : t.recordBytes = r :=
    recordBytes_of_padRecord (by omega) (by rw [h3, hl]; rfl) hpad
  refine ⟨_, _, hexec, run_queryProgram p hi ha hc hw hr h7 hl _ _ _, rfl, ?_, rfl, rfl, rfl, hbytes rfl rfl,
    record_property_three hp rfl (hbytes rfl rfl) hl⟩
  simp only [endedWith]
  split <;> simp

/-- Settles O60, clause by clause: the spec's parameters, block reset, the acceptance of each request, the frames, the scan,
the STC wait, and the run of a three-byte GET_PROPERTY. -/
theorem parametersAreArguments : Obligations.ParametersAreArguments := by
  refine ⟨stepWith_spec, execWith_spec, rfl, fun p => ⟨resetWith_eq p, ?_, ?_, ?_, ?_, ?_⟩⟩
  · intro s a m x v f y z hb ha
    refine ⟨?_, execWith_powerDown p hb ha, ?_, ?_, execWith_getProperty p hb ha x, execWith_getStatus p hb ha,
      execWith_getRevision p hb ha, execWith_getRevisionLong p hb ha, ?_, ?_⟩
    · rw [← settleUp_eq]
      exact execWith_powerUp p hb ha m
    · intro h
      exact execWith_setProperty_legal p hb ha ((propertyLegal_iff x v p).2 h)
    · intro hx hv
      have h : propertyLegal x v p = false := by simp [propertyLegal, hx, hv]
      exact execWith_setProperty_illegal p hb ha h
    · intro hm
      exact ⟨fun hlo hhi => execWith_tune_legal p hb ha hm ((bandLegal_iff s.cfg .fm f).2 ⟨hlo, hhi⟩),
        execWith_seekStart p hb ha hm y z, execWith_getTuneStatus p hb ha hm y z, execWith_getRsqStatus p hb ha hm z⟩
    · intro hm
      exact ⟨fun hlo hhi => execWith_tune_legal p hb ha hm ((bandLegal_iff s.cfg .am f).2 ⟨hlo, hhi⟩),
        execWith_seekStart p hb ha hm y z, execWith_getTuneStatus p hb ha hm y z, execWith_getRsqStatus p hb ha hm z⟩
  · intro s a i f rest ha hw
    exact ⟨fun h => (execWith_of_encode h s).trans (congrArg _ (wr_ok ha hw f)), fun h => stepWith_wr_ok h ha hw⟩
  · intro s rest l a before after h hn hs hp hl hbefore
    exact stepWith_resolve_found h hn hs (pickAddr_first hp hl hbefore)
  · intro s a hb hw hk ha
    exact ⟨fun b hc hr => stepWith_stc_poll p hb hw hk ha hc hr, fun hc hn => stepWith_stc_write p hb hw hk ha hc hn⟩
  · intro s a x b r ws rs hb hi ha hc hw hr h7 hp hl
    exact getProperty_three_runs x hb hi ha hc hw hr h7 hp hl

end Sys2Proof.Machine

/-! PROOF. What a step can do to the registers (10_state.md R20 to R33), said once for each group of registers, and the
statements about them: the writers of each register, and the invariants that every step keeps. -/

namespace Sys2Proof.Machine

/-! ## ADDR, MODE, CFG, the result record and the port: who writes them (R21, R22, R24, R29 to R31) -/

/-- ADDR, MODE, CFG, the result record and the port of `t` are those of `s`. -/
structure SameRegs (s t : State) : Prop where
  addr : t.addr = s.addr := by rfl
  mode : t.mode = s.mode := by rfl
  cfg : t.cfg = s.cfg := by rfl
  kind : t.resultKind = s.resultKind := by rfl
  len : t.resultLen = s.resultLen := by rfl
  bytes : t.resultBytes = s.resultBytes := by rfl
  port : t.port = s.port := by rfl

/-- What a step can do to these registers: nothing; acceptance, which takes a word off the port and clears the record;
or the write of one micro-operation, to one of them. -/
inductive RegsEffect (s t : State) : Prop
  | kept (same : SameRegs s t)
  | accepted (idle : s.busy = false) (addr : t.addr = s.addr) (mode : t.mode = s.mode) (cfg : t.cfg = s.cfg)
      (kind : t.resultKind = .none) (len : t.resultLen = 0) (bytes : t.resultBytes = Vector.replicate 14 0x00)
  | resolved {a : Addr} {rest : List MicroOp} (head : AtMicro .resolve rest s) (unknown : s.addr = none)
      (found : t.addr = some a) (legal : Config.legalAddrs.contains a = true)
      (same : SameRegs s { t with addr := s.addr })
  | modeWritten {m : MicroOp} {rest : List MicroOp} (head : AtMicro m rest s)
      (written : (m = .invMode ∧ t.mode = none) ∨ (m = .noteReset ∧ t.mode = none) ∨
        ∃ x, m = .commit x ∧ t.mode = some x)
      (same : SameRegs s { t with mode := s.mode })
  | configured {r : CfgReg} {v : Half} {rest : List MicroOp} (head : AtMicro (.cfgWrite r v) rest s)
      (written : t.cfg = s.cfg.set r v) (same : SameRegs s { t with cfg := s.cfg })
  | stored {a : Addr} {n : Nat} {k : Kind} {r : List Byte} {rest : List MicroOp} (head : AtMicro (.rd n k) rest s)
      (read : t.trace = s.trace ++ [.read a n (.bytes r)]) (whole : r.length = n) (kind : t.resultKind = k)
      (len : t.resultLen = BitVec.ofNat 5 n) (bytes : t.resultBytes = padRecord r)
      (same : SameRegs s { t with
        resultKind := s.resultKind, resultLen := s.resultLen, resultBytes := s.resultBytes })

theorem pollStep_sameRegs {s u : State} (h : SameRegs s u) : SameRegs s (pollStep u) := by
  obtain ⟨h1, h2, h3, h4, h5, h6, h7⟩ := h
  rcases pollStep_effects u with
    ⟨-, e⟩ | ⟨a, -, ⟨c, -, -, e⟩ | ⟨b, -, -, e⟩ | ⟨b, -, -, -, e⟩ | ⟨b, -, -, -, e⟩ | ⟨-, -, e⟩ | ⟨-, -, e⟩⟩ <;>
    rw [e] <;> exact ⟨h1, h2, h3, h4, h5, h6, h7⟩

theorem wr_sameRegs {s u : State} (h : SameRegs s u) (f : List Byte) : SameRegs s (wr f u) := by
  obtain ⟨h1, h2, h3, h4, h5, h6, h7⟩ := h
  rcases wr_cases f u with ⟨-, e⟩ | ⟨a, -, ⟨-, e⟩ | ⟨-, e⟩⟩ <;> rw [e] <;> exact ⟨h1, h2, h3, h4, h5, h6, h7⟩

theorem rd_regsEffect {s : State} {n : Nat} {k : Kind} {rest : List MicroOp} (h : AtMicro (.rd n k) rest s) :
    RegsEffect s (rd n k { s with seq := rest }) := by
  rcases rd_cases n k { s with seq := rest } with ⟨-, e⟩ | ⟨a, -, ⟨c, -, -, e⟩ | ⟨r, hr, hn, e⟩⟩ <;> rw [e]
  · exact .kept {}
  · exact .kept {}
  · exact .stored (a := a) h (by simp [hr]) hn rfl rfl rfl {}

theorem resolve_regsEffect {s : State} {rest : List MicroOp} (h : AtMicro .resolve rest s) :
    RegsEffect s (resolve { s with seq := rest }) := by
  rcases resolve_cases { s with seq := rest } with ⟨-, e⟩ | ⟨hn, ⟨c, -, e⟩ | ⟨l, a, -, hp, e⟩⟩ <;> rw [e]
  · exact .kept {}
  · exact .kept {}
  · exact .resolved h hn rfl (pickAddr_legal hp) {}

/-- Every step does one of these to ADDR, MODE, CFG, the result record and the port: the cases of `step_effects`, in its
order. -/
theorem step_regsEffect {s t : State} (h : step s = .next t) : RegsEffect s t := by
  rcases step_effects h with ⟨hb, w, w', rest, c, hp, -, rfl⟩ | ⟨-, -, rfl⟩ | ⟨-, -, rfl⟩ | ⟨-, -, rest, k, -, rfl⟩ |
    ⟨-, -, rest, -, -, rfl⟩ | ⟨hb, hw, rest, hs, rfl⟩ | ⟨hb, hw, rest, m, hs, rfl⟩ | ⟨-, -, rest, ms, -, rfl⟩ |
    ⟨hb, hw, rest, hs, rfl⟩ | ⟨hb, hw, rest, r, v, hs, rfl⟩ | ⟨-, -, rest, f, -, rfl⟩ | ⟨hb, hw, rest, n, k, hs, rfl⟩ |
    ⟨hb, hw, rest, hs, rfl⟩ | ⟨-, -, -, rfl⟩
  case inl => cases c <;> exact .accepted hb rfl rfl rfl rfl rfl rfl
  · exact .kept (pollStep_sameRegs {})
  · exact .kept {}
  · exact .kept (pollStep_sameRegs {})
  · exact .kept {}
  · exact .modeWritten ⟨hb, hw, hs⟩ (.inl ⟨rfl, rfl⟩) {}
  · exact .modeWritten ⟨hb, hw, hs⟩ (.inr (.inr ⟨m, rfl, rfl⟩)) {}
  · exact .kept {}
  · exact .modeWritten ⟨hb, hw, hs⟩ (.inr (.inl ⟨rfl, rfl⟩)) {}
  · exact .configured ⟨hb, hw, hs⟩ rfl {}
  · exact .kept (wr_sameRegs (s := s) {} f)
  · exact rd_regsEffect ⟨hb, hw, hs⟩
  · exact resolve_regsEffect ⟨hb, hw, hs⟩
  · exact .kept {}

/-- Settles O44: of the writes, only the scan of RESOLVE_ADDRESS changes ADDR, and it runs where ADDR is not valid. -/
theorem addressIsImmutable : Obligations.AddressIsImmutable := by
  intro s t h
  have legal {a : Addr} (ha : Config.legalAddrs.contains a = true) : a = 0x11 ∨ a = 0x63 := by
    simpa [Config.legalAddrs, Config.addrFirst, Config.addrSecond] using ha
  have unchanged (ha : t.addr = s.addr) : (∀ a, s.addr = some a → t.addr = some a) ∧ (s.addr = none → t.addr ≠ none →
      ∃ rest, s.seq = .resolve :: rest ∧ (t.addr = some 0x11 ∨ t.addr = some 0x63)) :=
    ⟨fun _ hs => ha.trans hs, fun hs ht => absurd (ha.trans hs) ht⟩
  cases step_regsEffect h with
  | resolved head unknown found ok =>
    obtain ⟨-, -, hs⟩ := head
    exact ⟨by simp [unknown], fun _ _ => ⟨_, hs, (legal ok).imp (by simp [found]) (by simp [found])⟩⟩
  | kept same | modeWritten _ _ same | configured _ _ same | stored _ _ _ _ _ _ same => exact unchanged same.addr
  | accepted _ ha => exact unchanged ha

/-- Settles O45: the micro-operation at the head of SEQ is the only writer of MODE. -/
theorem modeWriters : Obligations.ModeWriters := by
  intro s t h hne
  cases step_regsEffect h with
  | modeWritten head written =>
    obtain ⟨hb, hw, hs⟩ := head
    exact ⟨hb, hw, _, _, hs, written⟩
  | kept same | resolved _ _ _ _ same | configured _ _ same | stored _ _ _ _ _ _ same => exact absurd same.mode hne
  | accepted _ _ hm => exact absurd hm hne

/-- Settles O46: the micro-operation of CONFIG_WRITE is the only writer of CFG, and it sets one register. -/
theorem cfgWriters : Obligations.CfgWriters := by
  intro s t h hne
  cases step_regsEffect h with
  | configured head written =>
    obtain ⟨hb, hw, hs⟩ := head
    exact ⟨hb, hw, _, _, _, hs, by simp [written], fun q hq => by rw [written, Cfg.get_set_other _ _ hq]⟩
  | kept same | resolved _ _ _ _ same | modeWritten _ _ same | stored _ _ _ _ _ _ same => exact absurd same.cfg hne
  | accepted _ _ _ hc => exact absurd hc hne

/-- The meaning of a request that meets BUSY = 1 is that it is held. -/
theorem exec_held {i : Instr} (hi : i.isRequest = true) {s : State} (hb : s.busy = true) :
    exec i s = .next (hold i.word s) := by
  obtain ⟨c, -, he⟩ := exec_request hi s
  simp [he, present, hb]

/-- Settles O21: only acceptance takes a word off the port, and it needs BUSY = 0. -/
theorem heldWhileBusy : Obligations.HeldWhileBusy := by
  refine ⟨fun s t hb h => ?_, fun i s hi hb => exec_held hi hb⟩
  cases step_regsEffect h with
  | accepted idle => simp [hb] at idle
  | kept same | resolved _ _ _ _ same | modeWritten _ _ same | configured _ _ same | stored _ _ _ _ _ _ same =>
    exact same.port

/-! ## The trace, LAST_STATUS and CTS_SEEN (R23, R26, R52) -/

/-- When a step may write the frame `f`: it is the frame of an STC wait that has seen CTS (R172), or of the WR at the
head of SEQ (R196). -/
def MaySend (s : State) (f : List Byte) : Prop :=
  (s.ctsSeen = true ∧ f = getIntStatusFrame) ∨ ∃ rest, AtMicro (.wr f) rest s

/-- What a step can do to the trace, LAST_STATUS and CTS_SEEN: nothing; NOTE_CHIP_RESET; a read whose answer has the
length asked for, or has not; a frame write; or a scan or a delay. -/
inductive StatusEffect (s t : State) : Prop
  | quiet (trace : t.trace = s.trace) (last : t.lastStatus = s.lastStatus) (seen : t.ctsSeen = s.ctsSeen)
  | noted {rest : List MicroOp} (head : AtMicro .noteReset rest s) (trace : t.trace = s.trace)
      (last : t.lastStatus = s.lastStatus) (seen : t.ctsSeen = false)
  | received {a : Addr} {n : Nat} {r : List Byte} (addr : s.addr = some a)
      (trace : t.trace = s.trace ++ [.read a n (.bytes r)]) (whole : r.length = n) (last : t.lastStatus = byteAt r 0)
      (seen : t.ctsSeen = statusCts (byteAt r 0))
  | missed {a : Addr} {n : Nat} {r : ReadAnswer} (addr : s.addr = some a) (trace : t.trace = s.trace ++ [.read a n r])
      (short : ∀ b, r = .bytes b → b.length ≠ n) (last : t.lastStatus = s.lastStatus) (seen : t.ctsSeen = s.ctsSeen)
  | sent {a : Addr} {f : List Byte} {r : WriteAnswer} (addr : s.addr = some a)
      (trace : t.trace = s.trace ++ [.write a f r]) (may : MaySend s f) (last : t.lastStatus = s.lastStatus)
      (seen : t.ctsSeen = false)
  | aside {e : Event} (trace : t.trace = s.trace ++ [e]) (noRead : e.isRead = false) (noWrite : e.isWrite = false)
      (last : t.lastStatus = s.lastStatus) (seen : t.ctsSeen = s.ctsSeen)

/-- One event of a wait, running or just started. -/
theorem pollStep_statusEffect (s : State) (q : List MicroOp) (k : WKind) (n : Half) (w : WState) :
    StatusEffect s (pollStep { s with seq := q, wkind := k, attempts := n, wstate := w }) := by
  rcases pollStep_effects { s with seq := q, wkind := k, attempts := n, wstate := w } with
    ⟨-, e⟩ | ⟨a, ha, ⟨c, -, hn, e⟩ | ⟨b, hr, -, e⟩ | ⟨b, hr, -, -, e⟩ | ⟨b, hr, -, -, e⟩ | ⟨-, hc, e⟩ | ⟨-, hc, e⟩⟩ <;>
    rw [e]
  · exact .quiet rfl rfl rfl
  · exact .missed ha rfl hn rfl rfl
  · exact .received (n := 1) (r := [b]) ha (by rw [← hr]; rfl) rfl rfl rfl
  · exact .received (n := 1) (r := [b]) ha (by rw [← hr]; rfl) rfl rfl rfl
  · exact .received (n := 1) (r := [b]) ha (by rw [← hr]; rfl) rfl rfl rfl
  · exact .sent ha rfl (.inl ⟨hc, rfl⟩) rfl rfl
  · exact .sent ha rfl (.inl ⟨hc, rfl⟩) rfl rfl

theorem wr_statusEffect {s : State} {f : List Byte} {rest : List MicroOp} (h : AtMicro (.wr f) rest s) :
    StatusEffect s (wr f { s with seq := rest }) := by
  rcases wr_cases f { s with seq := rest } with ⟨-, e⟩ | ⟨a, ha, ⟨-, e⟩ | ⟨-, e⟩⟩ <;> rw [e]
  · exact .quiet rfl rfl rfl
  · exact .sent ha rfl (.inr ⟨rest, h⟩) rfl rfl
  · exact .sent ha rfl (.inr ⟨rest, h⟩) rfl rfl

theorem rd_statusEffect (s : State) (n : Nat) (k : Kind) (q : List MicroOp) :
    StatusEffect s (rd n k { s with seq := q }) := by
  rcases rd_cases n k { s with seq := q } with ⟨-, e⟩ | ⟨a, ha, ⟨c, -, hn, e⟩ | ⟨r, hr, hn, e⟩⟩ <;> rw [e]
  · exact .quiet rfl rfl rfl
  · exact .missed ha rfl hn rfl rfl
  · exact .received ha (by rw [← hr]; rfl) hn rfl rfl

theorem resolve_statusEffect (s : State) (q : List MicroOp) : StatusEffect s (resolve { s with seq := q }) := by
  rcases resolve_cases { s with seq := q } with ⟨-, e⟩ | ⟨-, ⟨c, -, e⟩ | ⟨l, a, -, -, e⟩⟩ <;> rw [e]
  · exact .quiet rfl rfl rfl
  · exact .aside rfl rfl rfl rfl rfl
  · exact .aside rfl rfl rfl rfl rfl

/-- Every step does one of these to the trace, LAST_STATUS and CTS_SEEN: the cases of `step_effects`, in its
order. -/
theorem step_statusEffect {s t : State} (h : step s = .next t) : StatusEffect s t := by
  rcases step_effects h with ⟨-, w, w', rest, c, -, -, rfl⟩ | ⟨-, -, rfl⟩ | ⟨-, -, rfl⟩ | ⟨-, -, rest, k, -, rfl⟩ |
    ⟨-, -, rest, -, -, rfl⟩ | ⟨-, -, rest, -, rfl⟩ | ⟨-, -, rest, m, -, rfl⟩ | ⟨-, -, rest, ms, -, rfl⟩ |
    ⟨hb, hw, rest, hs, rfl⟩ | ⟨-, -, rest, r, v, -, rfl⟩ | ⟨hb, hw, rest, f, hs, rfl⟩ | ⟨-, -, rest, n, k, -, rfl⟩ |
    ⟨-, -, rest, -, rfl⟩ | ⟨-, -, -, rfl⟩
  case inl => cases c <;> exact .quiet rfl rfl rfl
  · exact pollStep_statusEffect s _ _ _ _
  · exact .aside rfl rfl rfl rfl rfl
  · exact pollStep_statusEffect s _ _ _ _
  · exact .quiet rfl rfl rfl
  · exact .quiet rfl rfl rfl
  · exact .quiet rfl rfl rfl
  · exact .aside rfl rfl rfl rfl rfl
  · exact .noted ⟨hb, hw, hs⟩ rfl rfl rfl
  · exact .quiet rfl rfl rfl
  · exact wr_statusEffect ⟨hb, hw, hs⟩
  · exact rd_statusEffect s _ _ _
  · exact resolve_statusEffect s _
  · exact .quiet rfl rfl rfl

/-- Settles O47: the event of the step says which it is. -/
theorem statusWriters : Obligations.StatusWriters := by
  intro s t h
  cases step_statusEffect h with
  | quiet trace last seen =>
    exact .inr ⟨last, by simp [trace], .inl ⟨seen, by simp [trace]⟩⟩
  | noted head trace last seen =>
    obtain ⟨-, -, hs⟩ := head
    exact .inr ⟨last, by simp [trace], .inr (.inr ⟨seen, trace, _, hs⟩)⟩
  | received _ trace whole last seen => exact .inl ⟨_, _, _, trace, whole, last, seen⟩
  | missed _ trace short last seen =>
    refine .inr ⟨last, fun a n r hr he => ?_, .inl ⟨seen, by simp [trace]⟩⟩
    cases List.append_cancel_left (trace.symm.trans he)
    exact short r rfl hr
  | sent _ trace _ last seen =>
    exact .inr ⟨last, by simp [trace], .inr (.inl ⟨seen, _, _, _, trace⟩)⟩
  | aside trace noRead noWrite last seen =>
    refine .inr ⟨last, fun a n r _ he => ?_, .inl ⟨seen, fun a f r he => ?_⟩⟩
    · cases List.append_cancel_left (trace.symm.trans he)
      cases noRead
    · cases List.append_cancel_left (trace.symm.trans he)
      cases noWrite

/-! ## BUSY, SEQ, RESULT_CODE and the wait (R28, R31 to R33) -/

/-- SEQ's frames are written only where CTS has been seen (R174). -/
def SeqReady (s : State) : Prop := seqGuarded (s.wstate != .idle || s.ctsSeen) s.seq = true

/-- A running wait has attempts left (R33). -/
def AttemptsLeft (s : State) : Prop := s.wstate ≠ .idle → s.attempts < waitLimit s.wkind s.cfg

/-- What a step can do with the request: accept it with a program; end it; or run it on, where SEQ keeps what is left of
it, in order, and the wait keeps its limit. -/
inductive ControlEffect (s t : State) : Prop
  | accepted (idle : s.busy = false) (busy : t.busy = true) (code : t.resultCode = .none) (program : ProgramOk t.seq)
      (left : AttemptsLeft s → AttemptsLeft t)
  | finished (busy : t.busy = false) (seq : t.seq = []) (wait : t.wstate = .idle)
  | running (wasBusy : s.busy = true) (busy : t.busy = true) (code : t.resultCode = s.resultCode) (seq : t.seq <:+ s.seq)
      (ready : SeqReady s → SeqReady t) (left : s.cfg.legal = true → AttemptsLeft s → AttemptsLeft t)

/-- Where no wait runs, the limit does not matter. -/
theorem attemptsLeft_of_idle {s : State} (h : s.wstate = .idle) : AttemptsLeft s := fun hn => absurd h hn

/-- Where a wait runs or CTS has been seen, SEQ is in order if it is where CTS has been seen. -/
theorem seqReady_of_seen {s : State} (h : s.wstate ≠ .idle ∨ s.ctsSeen = true) :
    SeqReady s ↔ seqGuarded true s.seq = true := by
  have hb : (s.wstate != .idle || s.ctsSeen) = true := by simpa using h
  rw [SeqReady, hb]

/-- Where no wait runs, SEQ is in order if it is for CTS_SEEN as it is. -/
theorem seqReady_of_idle {s : State} (h : s.wstate = .idle) : SeqReady s ↔ seqGuarded s.ctsSeen s.seq = true := by
  simp [SeqReady, h]

/-- One event of a wait that has counted `n` attempts, with `q` to follow. -/
theorem pollStep_controlEffect {s : State} {q : List MicroOp} {k : WKind} {n : Half} {w : WState} (hb : s.busy = true)
    (hw : w ≠ .idle) (hq : q <:+ s.seq) (ready : SeqReady s → seqGuarded true q = true)
    (left : s.cfg.legal = true → AttemptsLeft s → n < waitLimit k s.cfg) :
    ControlEffect s (pollStep { s with seq := q, wkind := k, attempts := n, wstate := w }) := by
  rcases pollStep_effects { s with seq := q, wkind := k, attempts := n, wstate := w } with
    ⟨-, e⟩ | ⟨a, -, ⟨c, -, -, e⟩ | ⟨b, -, hd, e⟩ | ⟨b, -, -, -, e⟩ | ⟨b, -, -, hl, e⟩ | ⟨-, -, e⟩ | ⟨-, -, e⟩⟩ <;>
    rw [e]
  · exact .finished rfl rfl rfl
  · exact .finished rfl rfl rfl
  · have hc : statusCts b = true := by cases k <;> simp_all [waitDone]
    exact .running hb hb rfl hq (fun h => (seqReady_of_seen (.inr hc)).2 (ready h)) fun _ _ => attemptsLeft_of_idle rfl
  · exact .finished rfl rfl rfl
  · exact .running hb hb rfl hq (fun h => (seqReady_of_seen (.inl (by simp))).2 (ready h)) fun _ _ _ => hl
  · exact .running hb hb rfl hq (fun h => (seqReady_of_seen (.inl hw)).2 (ready h)) fun hc h _ => left hc h
  · exact .finished rfl rfl rfl

/-- A micro-operation that starts no wait is done: SEQ goes on after it. -/
theorem popped_controlEffect {s t : State} {m : MicroOp} {rest : List MicroOp} (head : AtMicro m rest s)
    (busy : t.busy = s.busy) (code : t.resultCode = s.resultCode) (seq : t.seq = rest) (wait : t.wstate = s.wstate)
    (ready : seqGuarded s.ctsSeen (m :: rest) = true → seqGuarded t.ctsSeen rest = true) : ControlEffect s t := by
  obtain ⟨hb, hw, hs⟩ := head
  have hw' := wait.trans hw
  refine .running hb (busy.trans hb) code ⟨[m], by simp [hs, seq]⟩ ?_ fun _ _ => attemptsLeft_of_idle hw'
  rw [seqReady_of_idle hw, seqReady_of_idle hw', hs, seq]
  exact ready

theorem wr_controlEffect {s : State} {f : List Byte} {rest : List MicroOp} (h : AtMicro (.wr f) rest s) :
    ControlEffect s (wr f { s with seq := rest }) := by
  rcases wr_cases f { s with seq := rest } with ⟨-, e⟩ | ⟨a, -, ⟨-, e⟩ | ⟨-, e⟩⟩ <;> rw [e]
  · exact .finished rfl rfl rfl
  · exact popped_controlEffect h rfl rfl rfl rfl (by simp [seqGuarded])
  · exact .finished rfl rfl rfl

theorem rd_controlEffect {s : State} {n : Nat} {k : Kind} {rest : List MicroOp} (h : AtMicro (.rd n k) rest s) :
    ControlEffect s (rd n k { s with seq := rest }) := by
  rcases rd_cases n k { s with seq := rest } with ⟨-, e⟩ | ⟨a, -, ⟨c, -, -, e⟩ | ⟨r, -, -, e⟩⟩ <;> rw [e]
  · exact .finished rfl rfl rfl
  · exact .finished rfl rfl rfl
  · exact popped_controlEffect h rfl rfl rfl rfl seqGuarded_mono

theorem resolve_controlEffect {s : State} {rest : List MicroOp} (h : AtMicro .resolve rest s) :
    ControlEffect s (resolve { s with seq := rest }) := by
  rcases resolve_cases { s with seq := rest } with ⟨-, e⟩ | ⟨-, ⟨c, -, e⟩ | ⟨l, a, -, -, e⟩⟩ <;> rw [e]
  · exact popped_controlEffect h rfl rfl rfl rfl id
  · exact .finished rfl rfl rfl
  · exact popped_controlEffect h rfl rfl rfl rfl id

/-- A legal CFG gives every wait an attempt (R24). -/
theorem waitLimit_pos {c : Cfg} (h : c.legal = true) (k : WKind) : 0 < waitLimit k c := by
  simp only [Cfg.legal, Bool.and_eq_true, decide_eq_true_eq] at h
  obtain ⟨⟨h1, h2⟩, -⟩ := h
  cases k <;> simp only [waitLimit] <;> bv_omega

/-- Every step does one of these with the request: the cases of `step_effects`, in its order. -/
theorem step_controlEffect {s t : State} (h : step s = .next t) : ControlEffect s t := by
  rcases step_effects h with ⟨hb, w, w', rest, c, -, hc, rfl⟩ | ⟨hb, hw, rfl⟩ | ⟨hb, hw, rfl⟩ |
    ⟨hb, hw, rest, k, hs, rfl⟩ | ⟨hb, hw, rest, hs, hseen, rfl⟩ | ⟨hb, hw, rest, hs, rfl⟩ | ⟨hb, hw, rest, m, hs, rfl⟩ |
    ⟨hb, hw, rest, ms, hs, rfl⟩ | ⟨hb, hw, rest, hs, rfl⟩ | ⟨hb, hw, rest, r, v, hs, rfl⟩ | ⟨hb, hw, rest, f, hs, rfl⟩ |
    ⟨hb, hw, rest, n, k, hs, rfl⟩ | ⟨hb, hw, rest, hs, rfl⟩ | ⟨-, -, -, rfl⟩
  case inl =>
    cases c with
    | error c => exact .finished rfl rfl rfl
    | ok q => exact .accepted hb rfl rfl (hc.2 q rfl) id
  · have hw' : s.wstate ≠ .idle := by simp [hw]
    exact pollStep_controlEffect hb hw' (List.suffix_refl _) (seqReady_of_seen (.inl hw')).1 fun _ h => h hw'
  · have hw' : s.wstate ≠ .idle := by simp [hw]
    refine .running hb hb rfl (List.suffix_refl _) (fun h => ?_) fun _ h _ => h hw'
    exact (seqReady_of_seen (.inl (by simp))).2 ((seqReady_of_seen (.inl hw')).1 h)
  · refine pollStep_controlEffect hb (by simp) ?_ ?_ fun hc _ => waitLimit_pos hc k
    · rcases hs with ⟨hs, -⟩ | ⟨hs, -⟩ | ⟨hs, -⟩ <;> exact ⟨[_], hs.symm⟩
    · rw [seqReady_of_idle hw]
      rcases hs with ⟨hs, -⟩ | ⟨hs, -⟩ | ⟨hs, -⟩ <;> simp [hs, seqGuarded]
  · exact popped_controlEffect ⟨hb, hw, hs⟩ rfl rfl rfl rfl (by simp [hseen, seqGuarded])
  · exact popped_controlEffect ⟨hb, hw, hs⟩ rfl rfl rfl rfl id
  · exact popped_controlEffect ⟨hb, hw, hs⟩ rfl rfl rfl rfl id
  · exact popped_controlEffect ⟨hb, hw, hs⟩ rfl rfl rfl rfl id
  · exact popped_controlEffect ⟨hb, hw, hs⟩ rfl rfl rfl rfl id
  · exact popped_controlEffect ⟨hb, hw, hs⟩ rfl rfl rfl rfl id
  · exact wr_controlEffect ⟨hb, hw, hs⟩
  · exact rd_controlEffect ⟨hb, hw, hs⟩
  · exact resolve_controlEffect ⟨hb, hw, hs⟩
  · exact .finished rfl rfl rfl

/-! ## The invariants every step keeps -/

/-- Settles O51: a step that leaves BUSY = 0 has ended the request. -/
theorem stepKeepsIdleInv : Obligations.StepKeepsIdleInv := by
  intro s t _ h hb
  cases step_controlEffect h with
  | finished _ seq wait => exact ⟨seq, wait⟩
  | accepted _ busy | running _ busy => simp [busy] at hb

/-- What may stand in SEQ stays so: a program that is accepted is legal, and the rest of a legal SEQ is. -/
theorem step_seq_legal {s t : State} (h : step s = .next t) (hs : ∀ m, m ∈ s.seq → m.legal = true) :
    ∀ m, m ∈ t.seq → m.legal = true := by
  cases step_controlEffect h with
  | accepted _ _ _ program => exact program.1
  | finished _ seq => simp [seq]
  | running _ _ _ seq => exact fun m hm => hs m (seq.subset hm)

/-- An event that is no read and no write goes to no address. -/
theorem Event.addrLegal_of_aside {e : Event} (hr : e.isRead = false) (hw : e.isWrite = false) : e.addrLegal = true := by
  cases e with
  | read => cases hr
  | write => cases hw
  | scan | delay => rfl

/-- The event that a step appends to the trace goes to ADDR, or to none. -/
theorem StatusEffect.trace_addrLegal {s t : State} (h : StatusEffect s t)
    (ha : ∀ a, s.addr = some a → Config.legalAddrs.contains a = true) (hs : ∀ e, e ∈ s.trace → e.addrLegal = true) :
    ∀ e, e ∈ t.trace → e.addrLegal = true := by
  have appended {e : Event} (he : e.addrLegal = true) : ∀ x, x ∈ s.trace ++ [e] → x.addrLegal = true := by
    simp only [List.mem_append, List.mem_singleton]
    rintro x (hx | rfl)
    · exact hs x hx
    · exact he
  cases h with
  | quiet trace | noted _ trace => exact trace ▸ hs
  | received addr trace | missed addr trace | sent addr trace => exact trace ▸ appended (ha _ addr)
  | aside trace noRead noWrite => exact trace ▸ appended (Event.addrLegal_of_aside noRead noWrite)

/-- Settles O52: ADDR changes only to an address a scan resolved, and events go to ADDR. -/
theorem stepKeepsAddrInv : Obligations.StepKeepsAddrInv := by
  rintro s t ⟨ha, ht⟩ h
  refine ⟨?_, (step_statusEffect h).trace_addrLegal ha ht⟩
  cases step_regsEffect h with
  | resolved _ _ found legal =>
    rintro a e
    obtain rfl : _ = a := Option.some.inj (found.symm.trans e)
    exact legal
  | kept same | modeWritten _ _ same | configured _ _ same | stored _ _ _ _ _ _ same =>
    have e : t.addr = s.addr := same.addr
    exact e ▸ ha
  | accepted _ addr => exact addr ▸ ha

/-- A legal value written to a register leaves CFG legal (R25). -/
theorem Cfg.legal_set {c : Cfg} {r : CfgReg} {v : Half} (hc : c.legal = true) (hv : r.legal v = true) :
    (c.set r v).legal = true := by
  cases r <;> simp_all [Cfg.legal, Cfg.set, CfgReg.legal]

/-- Settles O53: CFG takes a legal value from SEQ, and the wait stops at its limit. -/
theorem stepKeepsWaitInv : Obligations.StepKeepsWaitInv := by
  rintro s t ⟨hc, hs, hl⟩ h
  refine ⟨?_, step_seq_legal h hs, ?_⟩
  · cases step_regsEffect h with
    | configured head written =>
      obtain ⟨-, -, hq⟩ := head
      exact written ▸ Cfg.legal_set hc (hs (.cfgWrite _ _) (by simp [hq]))
    | kept same | resolved _ _ _ _ same | modeWritten _ _ same | stored _ _ _ _ _ _ same =>
      have e : t.cfg = s.cfg := same.cfg
      exact e ▸ hc
    | accepted _ _ _ cfg => exact cfg ▸ hc
  · cases step_controlEffect h with
    | accepted _ _ _ _ left => exact left hl
    | finished _ _ wait => exact attemptsLeft_of_idle wait
    | running _ _ _ _ _ left => exact left hc hl

/-- Settles O48: the record by its writers, RESULT_CODE by the request's course. -/
theorem resultWriters : Obligations.ResultWriters := by
  intro s t h
  constructor
  · cases step_regsEffect h with
    | accepted idle _ _ _ kind len bytes => exact .inr (.inl ⟨idle, kind, len, bytes⟩)
    | stored head read whole kind len bytes =>
      obtain ⟨-, -, hs⟩ := head
      exact .inr (.inr ⟨_, _, _, _, _, hs, read, whole, kind, len, bytes⟩)
    | kept same | resolved _ _ _ _ same | modeWritten _ _ same | configured _ _ same =>
      exact .inl ⟨same.kind, same.len, same.bytes⟩
  · cases step_controlEffect h with
    | accepted idle _ code => exact .inr (.inr ⟨idle, code⟩)
    | finished busy => exact .inr (.inl busy)
    | running _ _ code => exact .inl code

/-- A record's length is one that RESULT_LEN and RESULT_BYTES can hold (R30, R90). -/
theorem Kind.len_le (k : Kind) : k.len ≤ 14 := by cases k <;> decide

/-- RESULT_BYTES holds zeros after the record (R30). -/
theorem padRecord_of_length_le {r : List Byte} (i : Fin 14) (h : r.length ≤ i.val) : (padRecord r)[i] = 0 := by
  simp [padRecord, byteAt, h]

/-- Settles O54: a record is stored by a RD whose length is its kind's. -/
theorem stepKeepsResultInv : Obligations.StepKeepsResultInv := by
  rintro s t ⟨hcode, hs, hlen, hbytes⟩ h
  have code : t.busy = true → t.resultCode = .none := fun hb => by
    cases step_controlEffect h with
    | accepted _ _ code => exact code
    | finished busy => simp [busy] at hb
    | running wasBusy _ code => exact code.trans (hcode wasBusy)
  cases step_regsEffect h with
  | kept same | resolved _ _ _ _ same | modeWritten _ _ same | configured _ _ same =>
    have ek : t.resultKind = s.resultKind := same.kind
    have el : t.resultLen = s.resultLen := same.len
    have eb : t.resultBytes = s.resultBytes := same.bytes
    exact ⟨code, step_seq_legal h hs, by rw [ek, el, hlen], by rw [el, eb]; exact hbytes⟩
  | accepted _ _ _ _ kind len bytes =>
    exact ⟨code, step_seq_legal h hs, by rw [kind, len]; rfl, by simp [bytes]⟩
  | @stored a n k r rest head _ whole kind len bytes =>
    obtain ⟨-, -, hq⟩ := head
    have hn : n = k.len := by
      have hm : (MicroOp.rd n k).legal = true := hs _ (by simp [hq])
      simp only [MicroOp.legal, Bool.and_eq_true, beq_iff_eq] at hm
      exact hm.2
    have hlen' : t.resultLen.toNat = n := by
      have := k.len_le
      simp [len]
      omega
    refine ⟨code, step_seq_legal h hs, by rw [hlen', hn, kind], fun i hi => ?_⟩
    rw [bytes]
    exact padRecord_of_length_le i (by omega)

/-- Where SEQ is in order, a frame is written only if CTS has been seen (R174). -/
theorem MaySend.seen {s : State} {f : List Byte} (h : MaySend s f) (hs : SeqReady s) : s.ctsSeen = true := by
  rcases h with ⟨hc, -⟩ | ⟨rest, -, hw, hq⟩
  · exact hc
  · rw [seqReady_of_idle hw, hq, seqGuarded, Bool.and_eq_true] at hs
    exact hs.1

/-- A step that writes a frame only where CTS has been seen keeps the trace guarded, and CTS_SEEN what the trace shows
(R23, R59). -/
theorem StatusEffect.gate {s t : State} (h : StatusEffect s t) (htrace : guarded false s.trace = true)
    (hseen : s.ctsSeen = true → readyAfter false s.trace = true) (may : ∀ f, MaySend s f → s.ctsSeen = true) :
    guarded false t.trace = true ∧ (t.ctsSeen = true → readyAfter false t.trace = true) := by
  cases h with
  | quiet trace _ seen => exact ⟨by rw [trace, htrace], by rw [trace, seen]; exact hseen⟩
  | noted _ trace _ seen => exact ⟨by rw [trace, htrace], by simp [seen]⟩
  | received _ trace whole _ seen =>
    exact ⟨by simp [trace, htrace, Event.isWrite],
      by simp +contextual [trace, seen, readyNext, Event.isWrite, Event.showsCts, whole]⟩
  | missed _ trace _ _ seen =>
    exact ⟨by simp [trace, htrace, Event.isWrite], by simp +contextual [trace, seen, readyNext, Event.isWrite, hseen]⟩
  | sent _ trace ok _ seen =>
    exact ⟨by simp [trace, htrace, hseen (may _ ok)], by simp [seen]⟩
  | aside trace _ noWrite _ seen =>
    exact ⟨by simp [trace, htrace, noWrite], by simp +contextual [trace, seen, readyNext, noWrite, hseen]⟩

/-- Settles O56: SEQ's order lets a frame be written only where CTS has been seen, and then the trace shows it. -/
theorem stepKeepsReadyInv : Obligations.StepKeepsReadyInv := by
  rintro s t ⟨htrace, hseen, hseq⟩ h
  obtain ⟨htrace', hseen'⟩ := (step_statusEffect h).gate htrace hseen fun f hf => hf.seen hseq
  refine ⟨htrace', hseen', ?_⟩
  cases step_controlEffect h with
  | accepted _ _ _ program => exact seqGuarded_mono program.2
  | finished _ seq => simp [seq, seqGuarded]
  | running _ _ _ _ ready => exact ready hseq

/-! ## CUR_REQ (R31, R36) -/

/-- The state with another word in CUR_REQ. -/
abbrev State.withReq (s : State) (w : ReqWord) : State := { s with curReq := w }

theorem wr_withReq (f : List Byte) (s : State) (w : ReqWord) : wr f (s.withReq w) = (wr f s).withReq w := by
  unfold wr
  cases s.addr with
  | none => rfl
  | some a => cases s.bus.nextWrite <;> rfl

theorem rd_withReq (n : Nat) (k : Kind) (s : State) (w : ReqWord) : rd n k (s.withReq w) = (rd n k s).withReq w := by
  unfold rd
  cases s.addr with
  | none => rfl
  | some a =>
    cases s.bus.nextRead with
    | busErr => rfl
    | bytes r =>
      dsimp only
      split
      · rfl
      · split <;> rfl

theorem resolve_withReq (s : State) (w : ReqWord) : resolve (s.withReq w) = (resolve s).withReq w := by
  unfold resolve
  cases s.addr with
  | some a => rfl
  | none =>
    cases s.bus.nextScan with
    | busErr => rfl
    | found l =>
      dsimp only
      cases pickAddr l <;> rfl

theorem polled_withReq (b : Byte) (s : State) (w : ReqWord) : polled b (s.withReq w) = (polled b s).withReq w := by
  unfold polled
  simp only [apply_ite (State.withReq · w)]
  rfl

theorem poll_withReq (s : State) (w : ReqWord) : poll (s.withReq w) = (poll s).withReq w := by
  unfold poll
  cases s.addr with
  | none => rfl
  | some a =>
    match s.bus.nextRead with
    | .busErr | .bytes [] | .bytes (_ :: _ :: _) => rfl
    | .bytes [b] => exact polled_withReq b (busRead a 1 s) w

theorem pollStep_withReq (s : State) (w : ReqWord) : pollStep (s.withReq w) = (pollStep s).withReq w := by
  unfold pollStep
  cases s.wkind with
  | cts => exact poll_withReq s w
  | stc =>
    cases s.ctsSeen with
    | true => exact wr_withReq _ s w
    | false => exact poll_withReq s w

theorem waitStep_withReq (s : State) (w : ReqWord) : waitStep (s.withReq w) = (waitStep s).withReq w := by
  unfold waitStep
  cases s.wstate with
  | idle | sleep => rfl
  | poll => exact pollStep_withReq s w

theorem startWait_withReq (k : WKind) (s : State) (w : ReqWord) :
    startWait k (s.withReq w) = (startWait k s).withReq w :=
  pollStep_withReq { s with wkind := k, attempts := 0, wstate := .poll } w

theorem runMicro_withReq (m : MicroOp) (s : State) (w : ReqWord) :
    runMicro m (s.withReq w) = (runMicro m s).withReq w := by
  cases m with
  | pre =>
    simp only [runMicro, pre]
    cases s.ctsSeen with
    | true => rfl
    | false => exact startWait_withReq .cts s w
  | waitCts => exact startWait_withReq .cts s w
  | waitStc => exact startWait_withReq .stc s w
  | wr f => exact wr_withReq f s w
  | rd n k => exact rd_withReq n k s w
  | resolve => exact resolve_withReq s w
  | invMode | settle | commit | cfgWrite | noteReset => rfl

/-- A step of a busy CCODEC does the same whatever CUR_REQ holds, and leaves it. -/
theorem step_busy_withReq {s t : State} (hb : s.busy = true) (h : step s = .next t) (w : ReqWord) :
    step (s.withReq w) = .next (t.withReq w) := by
  rcases step_cases h with ⟨hi, -⟩ | ⟨-, hw, rfl⟩ | ⟨-, hw, m, rest, hs, rfl⟩ | ⟨-, hw, hs, rfl⟩
  · simp [hb] at hi
  · exact (step_wait (s := s.withReq w) hb hw).trans (congrArg _ (waitStep_withReq s w))
  · exact (step_micro (s := s.withReq w) hb hw hs).trans (congrArg _ (runMicro_withReq m { s with seq := rest } w))
  · exact step_done (s := s.withReq w) hb hw hs

/-- Acceptance does not read CUR_REQ. -/
theorem present_withReq {s : State} (hb : s.busy = false) (v w : ReqWord) (c : Except ResultCode (List MicroOp)) :
    present v c (s.withReq w) = present v c s := by
  have hb' : (s.withReq w).busy = false := hb
  cases c with
  | ok q => rw [present_ok hb, present_ok hb']; rfl
  | error e => rw [present_error hb, present_error hb']; rfl

/-- The word that is accepted is left in CUR_REQ alone. -/
theorem present_word {s : State} (hb : s.busy = false) (v w : ReqWord) (c : Except ResultCode (List MicroOp)) :
    present v c s = (present w c s).withReq v := by
  cases c with
  | ok q => rw [present_ok hb, present_ok hb]; rfl
  | error e => rw [present_error hb, present_error hb]; rfl

/-- Neither the checks of a request nor its acceptance read CUR_REQ. -/
theorem exec_withReq {i : Instr} (hi : i.isRequest = true) {s : State} (hb : s.busy = false) (w : ReqWord) :
    exec i (s.withReq w) = exec i s := by
  cases i with
  | powerUp _ | powerDown | setProperty _ _ | getProperty _ | tune _ | seekStart _ _ | getStatus | getTuneStatus _ _
  | getRsqStatus _ | getRevision | getRevisionLong | awaitReady | resolveAddress | configWrite _ _ | noteChipReset =>
    exact congrArg Host.Outcome.next (present_withReq hb _ w _)
  | wirePowerUp _ _ _ | wireGetRev | wirePowerDown | wireSetProperty _ _ | wireGetProperty _ | wireGetIntStatus
  | wireFmTuneFreq _ | wireFmSeekStart _ _ | wireFmTuneStatus _ _ | wireFmRsqStatus _ | wireAmTuneFreq _
  | wireAmSeekStart _ _ | wireAmTuneStatus _ _ | wireAmRsqStatus _ => simp [Instr.isRequest] at hi

/-- A step of an idle CCODEC runs the request on its port (R31, R197). -/
theorem step_request {s : State} {v : ReqWord} {rest : List ReqWord} {i : Instr} (hb : s.busy = false)
    (hp : s.port = v :: rest) (hd : decodeRequest v = .ok i) : step s = exec i { s with port := rest } := by
  simp [step, fetch, fetchRequest, hb, hp, hd]

/-- A step of an idle CCODEC ends a word that is no request with ILLEGAL_REQUEST (R73, R197). -/
theorem step_illegal {s : State} {v : ReqWord} {rest : List ReqWord} {e : DecodeError} (hb : s.busy = false)
    (hp : s.port = v :: rest) (hd : decodeRequest v = .error e) :
    step s = .next (present v (.error .illegalRequest) { s with port := rest }) := by
  simp [step, fetch, fetchRequest, hb, hp, hd, illegalRequest]

/-- An idle CCODEC with no request presented takes no step (R197). -/
theorem step_stuck {s : State} (hb : s.busy = false) (hp : s.port = []) : step s = .fault .idle := by
  simp [step, fetch, fetchRequest, hb, hp]

/-- A step of an idle CCODEC does the same whatever CUR_REQ holds. -/
theorem step_idle_withReq {s : State} (hb : s.busy = false) (w : ReqWord) : step (s.withReq w) = step s := by
  have hb' : (s.withReq w).busy = false := hb
  cases hp : s.port with
  | nil => rw [step_stuck hb hp, step_stuck hb' hp]
  | cons v rest =>
    cases hd : decodeRequest v with
    | ok i =>
      rw [step_request hb hp hd, step_request hb' hp hd]
      exact exec_withReq (s := { s with port := rest }) (isRequest_of_decodeRequest hd) hb w
    | error e =>
      rw [step_illegal hb hp hd, step_illegal hb' hp hd]
      exact congrArg Host.Outcome.next (present_withReq (s := { s with port := rest }) hb v w _)

/-- Settles O37: every operation of a step commutes with a change of CUR_REQ, and acceptance overwrites it. -/
theorem curReqIsNeverRead : Obligations.CurReqIsNeverRead := by
  refine ⟨fun s t w hb h => step_busy_withReq hb h w, fun s w hb => step_idle_withReq hb w, fun s t hb h => ?_⟩
  obtain rfl := Host.Outcome.next.inj h
  have hw : Instr.getRevisionLong.word = 0xB000000000000000 := by decide
  rw [← hw]
  exact congrArg Host.Outcome.next (present_word hb _ _ _)

/-! ## CONFIG_WRITE (R24, R25, R192) -/

/-- The indices from 0x0D on name no register (R24). -/
theorem CfgReg.ofIndex_eq_none {x : Byte} : CfgReg.ofIndex x = none ↔ 0x0D ≤ x := by
  revert x; decide

/-- The register that an index names has that index (R24). -/
theorem CfgReg.eq_index_of_ofIndex {x : Byte} {r : CfgReg} (h : CfgReg.ofIndex x = some r) : x = r.index := by
  revert x; cases r <;> decide

/-- The operands that R25 refuses: no such register, or a value that it may not hold. -/
def CfgRefused (x : Byte) (v : Half) : Prop :=
  0x0D ≤ x ∨ ((x = 0x00 ∨ x = 0x01) ∧ v = 0) ∨ (x = 0x07 ∧ 1 < v)

/-- An index that names a register is refused for the values that are not legal in it (R24, R25). -/
theorem cfgRefused_index_iff (r : CfgReg) (v : Half) : CfgRefused r.index v ↔ r.legal v = false := by
  cases r <;> simp [CfgRefused, CfgReg.index, CfgReg.legal]

/-- Refused operands end CONFIG_WRITE. -/
theorem configWriteChecked_of_refused {x : Byte} {v : Half} (h : CfgRefused x v) :
    configWriteChecked x v = .error .invalidArgument := by
  unfold configWriteChecked
  cases hx : CfgReg.ofIndex x with
  | none => rfl
  | some r =>
    obtain rfl := CfgReg.eq_index_of_ofIndex hx
    simp [needLegal, (cfgRefused_index_iff r v).1 h]

/-- Operands that are not refused name a register, and the program writes it. -/
theorem configWriteChecked_of_legal {x : Byte} {v : Half} (h : ¬ CfgRefused x v) :
    ∃ r, CfgReg.ofIndex x = some r ∧ configWriteChecked x v = .ok [.cfgWrite r v] := by
  cases hx : CfgReg.ofIndex x with
  | none => exact absurd (.inl (CfgReg.ofIndex_eq_none.1 hx)) h
  | some r =>
    obtain rfl := CfgReg.eq_index_of_ofIndex hx
    rw [cfgRefused_index_iff] at h
    exact ⟨r, rfl, by simp_all [configWriteChecked, needLegal]⟩

/-- A run of one step more, by its first step. -/
theorem runSteps_succ {n : Nat} {s t : State} (h : step s = .next t) : runSteps (n + 1) s = runSteps n t := by
  simp only [runSteps, Host.Core.run, Sys2Proof.core, h]

/-- The run of an accepted CONFIG_WRITE: the write of its register, and the final `finish` (R192, R197). -/
theorem run_cfgWrite {s : State} (hw : s.wstate = .idle) (w : ReqWord) (r : CfgReg) (v : Half) :
    runSteps 2 (acceptedWith w [.cfgWrite r v] s) = .next { endedWith w false s with cfg := s.cfg.set r v } := by
  have hwrite := step_micro (s := acceptedWith w [.cfgWrite r v] s) rfl hw rfl
  have hdone := step_done (s := cfgWrite r v { acceptedWith w [.cfgWrite r v] s with seq := [] }) rfl hw rfl
  exact (runSteps_succ hwrite).trans (runSteps_succ hdone)

/-- A host read of another register does not see a write (R25). -/
theorem hostReadCfg_set_other (s : State) {r : CfgReg} {y : Byte} (v : Half) (hy : y ≠ r.index) :
    hostReadCfg y { s with cfg := s.cfg.set r v } = hostReadCfg y s := by
  cases hq : CfgReg.ofIndex y with
  | none => simp [hostReadCfg, hq]
  | some q =>
    have hne : q ≠ r := fun e => hy (e ▸ CfgReg.eq_index_of_ofIndex hq)
    simp [hostReadCfg, hq, Cfg.get_set_other _ _ hne]

/-- Settles O39: the check of CONFIG_WRITE decides, by R25's operands, between no write and that of one register. -/
theorem configWriteAllOrNothing : Obligations.ConfigWriteAllOrNothing := by
  intro s x v hb hw
  have hexec : exec (.configWrite x v) s = .next (present (reqWord 0xE 0 (be16 0 x) v) (configWriteChecked x v) s) := rfl
  rw [hexec]
  refine ⟨fun h => ?_, fun h => ?_⟩
  · rw [configWriteChecked_of_refused h, present_error hb]
  · obtain ⟨r, hx, hc⟩ := configWriteChecked_of_legal h
    rw [hc, present_ok hb]
    refine ⟨_, s.cfg.set r v, rfl, run_cfgWrite hw _ r v, by simp [hostReadCfg, hx], fun y hy => ?_⟩
    exact hostReadCfg_set_other s v (CfgReg.eq_index_of_ofIndex hx ▸ hy)

/-! ## The step's instruction (R31, R32, R74, R197) -/

theorem bit0Sub_of_zero (x : BitVec 4) (h : x.extractLsb' 1 3 = 0) : bit0Sub (x.getLsbD 0) = x := by
  revert x; decide

theorem seekSub_of_zero (x : BitVec 4) (h : x.extractLsb' 0 2 = 0) : seekSub (x.getLsbD 3) (x.getLsbD 2) = x := by
  revert x; decide

theorem tuneStatusSub_of_zero (x : BitVec 4) (h : x.extractLsb' 2 2 = 0) :
    tuneStatusSub (x.getLsbD 1) (x.getLsbD 0) = x := by
  revert x; decide

theorem modeBit_ofBit (b : Bool) : (Mode.ofBit b).bit = b := by cases b <;> rfl

theorem be16_zero_lo8 {a : Half} (h : hi8 a = 0) : be16 0 (lo8 a) = a := by rw [← h, be16_hi8_lo8]

/-- Four fields that decode to a request are its word's (R71, R72). -/
theorem encode_decodeFields {op sub : BitVec 4} {a b : Half} {i : Instr} (h : decodeFields op sub a b = .ok i) :
    encode i = .word (reqWord op sub a b) := by
  have hop {k : Nat} (e : op.toNat = k) : op = BitVec.ofNat 4 k := by rw [← e]; simp
  unfold decodeFields at h
  split at h <;> simp only [require_eq_ok, beq_iff_eq, Except.ok.injEq, reduceCtorEq] at h <;> rename_i e <;>
    rw [hop e]
  -- The case `h_k` is OP = k of R71's table.
  case h_1 => obtain ⟨hs, rfl, rfl, rfl⟩ := h; simp only [encode, modeBit_ofBit, bit0Sub_of_zero _ hs]; rfl
  case h_2 | h_7 | h_10 | h_11 | h_12 | h_13 | h_15 => obtain ⟨rfl, rfl, rfl, rfl⟩ := h; rfl
  case h_3 => obtain ⟨rfl, rfl⟩ := h; rfl
  case h_4 | h_5 => obtain ⟨rfl, rfl, rfl⟩ := h; rfl
  case h_6 => obtain ⟨hs, rfl, rfl, rfl⟩ := h; simp only [encode, seekSub_of_zero _ hs]; rfl
  case h_8 => obtain ⟨hs, rfl, rfl, rfl⟩ := h; simp only [encode, tuneStatusSub_of_zero _ hs]; rfl
  case h_9 => obtain ⟨hs, rfl, rfl, rfl⟩ := h; simp only [encode, bit0Sub_of_zero _ hs]; rfl
  case h_14 => obtain ⟨rfl, ha, rfl⟩ := h; simp only [encode, be16_zero_lo8 ha]; rfl

/-- A request word is the encoding of what it decodes to (R74). -/
theorem word_of_decodeRequest {w : ReqWord} {i : Instr} (h : decodeRequest w = .ok i) : i.word = w := by
  simp only [decodeRequest, require_eq_ok, beq_iff_eq] at h
  obtain ⟨h1, h0, h⟩ := h
  rw [Instr.word, encode_decodeFields h, reqWord_of_fields w h1 h0]

/-- Settles O14: the port's word and a WR's bytes are the encodings of what they decode to, and a WR runs as the frame
it is. -/
theorem stepRunsTheDecodedInstruction : Obligations.StepRunsTheDecodedInstruction := by
  refine ⟨fun s w rest i hb hp hd => ⟨step_request hb hp hd, word_of_decodeRequest hd⟩, fun s f rest i h hd => ?_⟩
  obtain ⟨hb, hw, hs⟩ := h
  have hf : i.frameBytes = f := frameBytes_of_decodeFrame hd
  refine ⟨?_, hf⟩
  rw [step_micro hb hw hs, exec_wire (isRequest_of_decodeFrame hd), hf]
  rfl

/-! ## Block reset (R36) -/

/-- Settles O13: block reset keeps the port and the transport alone, and the host's view shows neither. -/
theorem blockResetValues : Obligations.BlockResetValues := by
  rintro s (rfl | ⟨before, rfl⟩) <;> exact ⟨rfl, rfl⟩

/-- Settles O50: after block reset CCODEC is idle, no address is valid, and the trace is empty. -/
theorem invariantsHoldAtReset : Obligations.InvariantsHoldAtReset := by
  intro words bus
  have noSeq : ∀ m, m ∈ (bootWith words bus).seq → m.legal = true := by
    rintro m ⟨⟩
  have noRecord (i : Fin 14) : (bootWith words bus).resultLen.toNat ≤ i.val → (bootWith words bus).resultBytes[i] = 0 :=
    fun _ => by simp [bootWith, State.reset, State.resetWith]
  exact ⟨fun _ => ⟨rfl, rfl⟩, ⟨by rintro a ⟨⟩, by rintro e ⟨⟩⟩, ⟨by rfl, noSeq, attemptsLeft_of_idle rfl⟩,
    ⟨by rintro ⟨⟩, noSeq, rfl, noRecord⟩, ⟨noSeq, by rintro a f r ⟨⟩⟩, ⟨rfl, by rintro ⟨⟩, rfl⟩⟩

end Sys2Proof.Machine

/-! PROOF. The bus event trace (20_memory.md R51 to R59): what one frame write does, that a step appends at most one event,
and that CTS is shown between any two frame writes of a run. -/

namespace Sys2Proof.Machine

/-! ## A frame write (R51, R55, R196) -/

/-- Without an address nothing is sent. -/
theorem wr_noAddress {s : State} (ha : s.addr = none) (f : List Byte) : wr f s = finish .noAddress s := by
  simp [wr, ha]

/-- A frame write that the bus fails is an event and clears CTS_SEEN all the same. -/
theorem wr_busErr {s : State} {a : Addr} (ha : s.addr = some a) (hw : s.bus.nextWrite = .busErr) (f : List Byte) :
    wr f s = finish .busError { s with
      trace := s.trace ++ [.write a f .busErr], ctsSeen := false, bus := s.bus.afterWrite } := by
  simp [wr, ha, hw, busWrite, emit]

/-- Settles O22: each of the listed instructions encodes to its listed bytes, and its meaning is the WR of them. -/
theorem wireFrameIsWritten : Obligations.WireFrameIsWritten := by
  intro s x y m o p v i f h
  have encoded : encode i = .frame f := by
    simp only [List.mem_cons, Prod.mk.injEq, List.not_mem_nil, or_false] at h
    rcases h with ⟨rfl, rfl⟩ | ⟨rfl, rfl⟩ | ⟨rfl, rfl⟩ | ⟨rfl, rfl⟩ | ⟨rfl, rfl⟩ | ⟨rfl, rfl⟩ | ⟨rfl, rfl⟩ |
      ⟨rfl, rfl⟩ | ⟨rfl, rfl⟩ | ⟨rfl, rfl⟩ | ⟨rfl, rfl⟩ | ⟨rfl, rfl⟩ | ⟨rfl, rfl⟩ | ⟨rfl, rfl⟩ <;> rfl
  have written : exec i s = .next (wr f s) := (execWith_spec i s).symm.trans (execWith_of_encode encoded s)
  refine ⟨fun a ha hw => ?_, fun a ha hw => ?_, fun ha => ?_⟩
  · rw [written, wr_ok ha hw]
  · rw [written, wr_busErr ha hw]
    rfl
  · rw [written, wr_noAddress ha]
    rfl

/-! ## The events of one step (R52, R197) -/

/-- Acceptance makes no event. -/
theorem step_idle_trace {s t : State} (hb : s.busy = false) (h : step s = .next t) : t.trace = s.trace := by
  rcases step_cases h with ⟨-, w, w', rest, c, -, -, rfl⟩ | ⟨busy, -⟩ | ⟨busy, -⟩ | ⟨busy, -⟩
  · cases c <;> rfl
  all_goals simp [hb] at busy

/-- Every effect on the trace is no event or one. -/
theorem StatusEffect.trace_eq_or_append {s t : State} (h : StatusEffect s t) :
    t.trace = s.trace ∨ ∃ e, t.trace = s.trace ++ [e] := by
  cases h with
  | quiet trace | noted _ trace => exact .inl trace
  | received _ trace | missed _ trace | sent _ trace | aside trace => exact .inr ⟨_, trace⟩

/-- Settles O49: an idle step is an acceptance, and a busy one has one of the effects on the trace. -/
theorem atMostOneEventPerStep : Obligations.AtMostOneEventPerStep := by
  intro s t h
  cases hb : s.busy with
  | false => exact .inl (step_idle_trace hb h)
  | true => exact (step_statusEffect h).trace_eq_or_append.imp_right fun one => ⟨rfl, one⟩

/-! ## Guarded traces (R59) -/

/-- CTS has been shown since the last frame write only if a read showed it, or it had been before. -/
theorem exists_showsCts_of_readyAfter {es : List Event} (h : readyAfter false es = true) :
    ∃ e, e ∈ es ∧ e.showsCts = true := by
  induction es using List.reverseRecOn with
  | nil => cases h
  | append_singleton es e ih =>
    simp only [readyAfter_append, readyNext, Bool.and_eq_true, Bool.or_eq_true] at h
    obtain ⟨-, before | now⟩ := h
    · obtain ⟨x, hx, shown⟩ := ih before
      exact ⟨x, List.mem_append_left _ hx, shown⟩
    · exact ⟨e, by simp, now⟩

/-- A frame write of a guarded trace comes where CTS has been shown. -/
theorem readyAfter_of_guarded {r : Bool} {before after : List Event} {w : Event} (hw : w.isWrite = true)
    (h : guarded r (before ++ w :: after) = true) : readyAfter r before = true := by
  induction before generalizing r with
  | nil =>
    simp only [List.nil_append, guarded, hw, Bool.and_eq_true] at h
    exact h.1
  | cons e before ih =>
    simp only [List.cons_append, guarded, Bool.and_eq_true] at h
    exact ih h.2

/-- After a frame write CTS has to be shown anew: what came before it does not count. -/
theorem readyAfter_write {before between : List Event} {w : Event} (r : Bool) (hw : w.isWrite = true) :
    readyAfter r (before ++ w :: between) = readyAfter false between := by
  simp [readyAfter, readyNext, hw]

/-- A guarded trace is one in which CTS is shown before each frame write, after the one before it. -/
theorem separated_of_guarded {es : List Event} (h : guarded false es = true) : Separated es := by
  refine ⟨?_, ?_⟩
  · rintro before w after rfl hw
    exact exists_showsCts_of_readyAfter (readyAfter_of_guarded hw h)
  · rintro before w between v after rfl hw hv
    have ready : readyAfter false (before ++ w :: between) = true :=
      readyAfter_of_guarded (after := after) hv (by simpa using h)
    rw [readyAfter_write false hw] at ready
    exact exists_showsCts_of_readyAfter ready

/-! ## Runs -/

/-- What every step keeps, every run keeps. -/
theorem runSteps_keeps {P : State → Prop} (keep : ∀ s t, P s → step s = .next t → P t) {n : Nat} {s t : State} (hs : P s)
    (h : runSteps n s = .next t) : P t := by
  induction n generalizing s with
  | zero =>
    cases h
    exact hs
  | succ n ih =>
    cases hstep : step s with
    | next u => exact ih (keep s u hs hstep) (runSteps_succ hstep ▸ h)
    | fault r | refused r => simp [runSteps, Host.Core.run, Sys2Proof.core, hstep] at h

/-! ## Readiness, counting only the events after a point of the trace (R59) -/

/-- The trace of `s` goes on from `base`, and the readiness invariant holds of what came after `base` alone. -/
def ReadySince (base : List Event) (s : State) : Prop :=
  ∃ es, s.trace = base ++ es ∧ ReadyInv { s with trace := es }

/-- The invariant of the whole trace is the one since its beginning. -/
theorem ReadyInv.since_nil {s : State} (h : ReadyInv s) : ReadySince [] s := ⟨s.trace, rfl, h⟩

/-- Where CTS_SEEN is cleared, CTS has to be shown anew from here on. -/
theorem ReadyInv.since_trace {s : State} (h : ReadyInv s) (hc : s.ctsSeen = false) : ReadySince s.trace s :=
  ⟨[], by simp, rfl, by simp [hc], h.seq⟩

theorem ReadySince.separated {base : List Event} {s : State} (h : ReadySince base s) :
    ∃ es, s.trace = base ++ es ∧ Separated es := by
  obtain ⟨es, htrace, ready⟩ := h
  exact ⟨es, htrace, separated_of_guarded ready.trace⟩

/-- A step's effect on the trace does not look at the events before it: with the first events left out it is the same. -/
theorem StatusEffect.since {s t : State} {base es : List Event} (h : StatusEffect s t) (hs : s.trace = base ++ es) :
    ∃ es', t.trace = base ++ es' ∧ StatusEffect { s with trace := es } { t with trace := es' } := by
  have appended {e : Event} (trace : t.trace = s.trace ++ [e]) : t.trace = base ++ (es ++ [e]) := by
    rw [trace, hs, List.append_assoc]
  cases h with
  | quiet trace last seen => exact ⟨es, trace.trans hs, .quiet rfl last seen⟩
  | noted head trace last seen => exact ⟨es, trace.trans hs, .noted head rfl last seen⟩
  | received addr trace whole last seen => exact ⟨_, appended trace, .received addr rfl whole last seen⟩
  | missed addr trace short last seen => exact ⟨_, appended trace, .missed addr rfl short last seen⟩
  | sent addr trace may last seen => exact ⟨_, appended trace, .sent addr rfl may last seen⟩
  | aside trace noRead noWrite last seen => exact ⟨_, appended trace, .aside rfl noRead noWrite last seen⟩

/-- Every step keeps SEQ in order (R174). -/
theorem step_seqReady {s t : State} (h : step s = .next t) (hs : SeqReady s) : SeqReady t := by
  cases step_controlEffect h with
  | accepted _ _ _ program => exact seqGuarded_mono program.2
  | finished _ seq => simp [SeqReady, seq, seqGuarded]
  | running _ _ _ _ ready => exact ready hs

/-- Every step keeps the readiness invariant of the events after `base`. -/
theorem step_readySince {base : List Event} {s t : State} (hs : ReadySince base s) (h : step s = .next t) :
    ReadySince base t := by
  obtain ⟨es, htrace, hguarded, hseen, hseq⟩ := hs
  obtain ⟨es', htrace', effect⟩ := (step_statusEffect h).since htrace
  obtain ⟨hguarded', hseen'⟩ := effect.gate hguarded hseen fun _ may => may.seen hseq
  have hseq' : SeqReady t := step_seqReady h hseq
  exact ⟨es', htrace', hguarded', hseen', hseq'⟩

/-- Settles O57: the readiness invariant holds after block reset of the whole trace, and after NOTE_CHIP_RESET, which
clears CTS_SEEN, of the events to come; every step keeps both. -/
theorem readinessOnTheTrace : Obligations.ReadinessOnTheTrace := by
  refine ⟨fun words bus n t hrun => ?_, fun s r t rest n hs head hstep hrun => ?_⟩
  · obtain ⟨-, -, -, -, -, atReset⟩ := invariantsHoldAtReset words bus
    obtain ⟨es, rfl, separated⟩ := (runSteps_keeps (fun _ _ => step_readySince) atReset.since_nil hrun).separated
    exact separated
  · have cleared : r.ctsSeen = false := by
      obtain ⟨hb, hw, hq⟩ := head
      cases (step_micro hb hw hq).symm.trans hstep
      rfl
    have noted := (stepKeepsReadyInv s r hs hstep).since_trace cleared
    exact (runSteps_keeps (fun _ _ => step_readySince) noted hrun).separated

end Sys2Proof.Machine

/-! PROOF. The encodings (30_encoding.md R70 to R88): decoding and encoding are inverse, the opcode table decides what a
request word is, the frames the framer sends, that only R81's frames are written, and the assembler's numbers (R76). -/

namespace Sys2Proof.Machine

/-! ## Decoding and encoding are inverse (R70 to R74, R80 to R88) -/

/-- Settles O1: each instruction has its round trip, and the lemma of its name proves it. -/
theorem decodeOfEncode : Obligations.DecodeOfEncode := by
  intro i
  cases i with
  | powerUp m => exact Laws.Encoding.powerUp m
  | powerDown => exact Laws.Encoding.powerDown
  | setProperty id value => exact Laws.Encoding.setProperty id value
  | getProperty id => exact Laws.Encoding.getProperty id
  | tune freq => exact Laws.Encoding.tune freq
  | seekStart up wrap => exact Laws.Encoding.seekStart up wrap
  | getStatus => exact Laws.Encoding.getStatus
  | getTuneStatus cancel intack => exact Laws.Encoding.getTuneStatus cancel intack
  | getRsqStatus intack => exact Laws.Encoding.getRsqStatus intack
  | getRevision => exact Laws.Encoding.getRevision
  | getRevisionLong => exact Laws.Encoding.getRevisionLong
  | awaitReady => exact Laws.Encoding.awaitReady
  | resolveAddress => exact Laws.Encoding.resolveAddress
  | configWrite index value => exact Laws.Encoding.configWrite index value
  | noteChipReset => exact Laws.Encoding.noteChipReset
  | wirePowerUp xoscen func opmode => exact Laws.Encoding.wirePowerUp xoscen func opmode
  | wireGetRev => exact Laws.Encoding.wireGetRev
  | wirePowerDown => exact Laws.Encoding.wirePowerDown
  | wireSetProperty id value => exact Laws.Encoding.wireSetProperty id value
  | wireGetProperty id => exact Laws.Encoding.wireGetProperty id
  | wireGetIntStatus => exact Laws.Encoding.wireGetIntStatus
  | wireFmTuneFreq freq => exact Laws.Encoding.wireFmTuneFreq freq
  | wireFmSeekStart up wrap => exact Laws.Encoding.wireFmSeekStart up wrap
  | wireFmTuneStatus cancel intack => exact Laws.Encoding.wireFmTuneStatus cancel intack
  | wireFmRsqStatus intack => exact Laws.Encoding.wireFmRsqStatus intack
  | wireAmTuneFreq freq => exact Laws.Encoding.wireAmTuneFreq freq
  | wireAmSeekStart up wrap => exact Laws.Encoding.wireAmSeekStart up wrap
  | wireAmTuneStatus cancel intack => exact Laws.Encoding.wireAmTuneStatus cancel intack
  | wireAmRsqStatus intack => exact Laws.Encoding.wireAmRsqStatus intack

/-- A request word is the encoding of what it decodes to (R74). -/
theorem encode_decodeRequest {w : ReqWord} {i : Instr} (h : decodeRequest w = .ok i) : encode i = .word w := by
  simp only [decodeRequest, require_eq_ok, beq_iff_eq] at h
  obtain ⟨h1, h0, h⟩ := h
  rw [encode_decodeFields h, reqWord_of_fields w h1 h0]

/-- Settles O2: a word by its six fields, a frame by its byte 0 and its arguments. -/
theorem encodeOfDecode : Obligations.EncodeOfDecode := by
  intro e i h
  cases e with
  | word w => exact encode_decodeRequest h
  | frame f => exact encode_decodeFrame h

/-- Settles O5: each literal is evaluated. -/
theorem writtenWordsDecode : Obligations.WrittenWordsDecode := by
  refine ⟨?_, ?_, ?_, ?_, ?_, ?_, ?_, ?_, ?_, ?_, ?_⟩ <;> decide

/-! ## The bits that R72 marks 0 (R72, R73) -/

theorem be16_and (h l x y : Byte) : be16 h l &&& be16 x y = be16 (h &&& x) (l &&& y) := BitVec.and_append

/-- The high byte of A is 0, as CONFIG_WRITE has it. -/
theorem and_hiMask_eq_zero_iff (a : Half) : a &&& 0xFF00#16 = 0#16 ↔ hi8 a = 0#8 := by
  have masked : a &&& 0xFF00#16 = be16 (hi8 a) 0x00 := by
    calc a &&& 0xFF00#16 = be16 (hi8 a) (lo8 a) &&& be16 0xFF 0x00 := by rw [be16_hi8_lo8]; rfl
      _ = be16 (hi8 a) 0x00 := (be16_and ..).trans (congrArg₂ be16 BitVec.and_allOnes BitVec.and_zero)
  rw [masked]
  refine ⟨fun e => ?_, fun e => by rw [e]; rfl⟩
  rw [← hi8_be16 (hi8 a) 0x00, e]
  rfl

/-- A or B is 0. -/
theorem and_fullMask_eq_zero_iff (a : Half) : a &&& 0xFFFF#16 = 0#16 ↔ a = 0#16 := by
  rw [show 0xFFFF#16 = BitVec.allOnes 16 from rfl, BitVec.and_allOnes]

/-- The bits of SUB outside a request's flags are 0, for each choice of flags in R72's table. -/
theorem sub_and_mask_eq_zero_iff (sub : BitVec 4) :
    (sub &&& 0xF#4 = 0#4 ↔ sub = 0#4) ∧ (sub &&& 0xE#4 = 0#4 ↔ sub.extractLsb' 1 3 = 0#3) ∧
    (sub &&& 0x3#4 = 0#4 ↔ sub.extractLsb' 0 2 = 0#2) ∧ (sub &&& 0xC#4 = 0#4 ↔ sub.extractLsb' 2 2 = 0#2) := by
  revert sub; decide

theorem exists_require_eq_ok {ok : Bool} {e : DecodeError} {k : Except DecodeError Instr} :
    (∃ i, require ok e k = .ok i) ↔ ok = true ∧ ∃ i, k = .ok i := by
  simp [require_eq_ok]

/-- Four fields are a request where OP is one and the bits that R72 marks 0 for it are 0. -/
theorem exists_decodeFields_eq_ok (op sub : BitVec 4) (a b : Half) : (∃ i, decodeFields op sub a b = .ok i) ↔
    op ≠ 0 ∧ sub &&& (zeroFields op).1 = 0 ∧ a &&& (zeroFields op).2.1 = 0 ∧ b &&& (zeroFields op).2.2 = 0 := by
  have hop {k : Nat} (e : op.toNat = k) : op = BitVec.ofNat 4 k := by rw [← e]; simp
  unfold decodeFields
  split
  case h_16 =>
    have zero : op.toNat = 0 := by
      have := op.isLt
      simp only [imp_false] at *
      omega
    simp [hop zero]
  -- The other cases are the rows of R71's table.
  all_goals
    rename_i e
    simp [hop e, zeroFields, exists_require_eq_ok, sub_and_mask_eq_zero_iff, and_fullMask_eq_zero_iff,
      and_hiMask_eq_zero_iff]

/-- The reserved fields of a request word, and the bits that R72 marks 0 for its OP, are 0. -/
def ReservedZero (w : ReqWord) : Prop :=
  reqRsv1 w = 0 ∧ reqRsv0 w = 0 ∧ reqSub w &&& (zeroFields (reqOp w)).1 = 0 ∧
    reqA w &&& (zeroFields (reqOp w)).2.1 = 0 ∧ reqB w &&& (zeroFields (reqOp w)).2.2 = 0

/-- A word is a request where its OP is one and its reserved bits are 0 (R73, R74). -/
theorem exists_decodeRequest_eq_ok (w : ReqWord) :
    (∃ i, decodeRequest w = .ok i) ↔ reqOp w ≠ 0 ∧ ReservedZero w := by
  simp only [decodeRequest, exists_require_eq_ok, exists_decodeFields_eq_ok, beq_iff_eq, ReservedZero]
  tauto

theorem exists_decodeRequest_eq_error (w : ReqWord) :
    (∃ e, decodeRequest w = .error e) ↔ ¬ ∃ i, decodeRequest w = .ok i := by
  cases decodeRequest w <;> simp

/-- Settles O4: a word that is no request fails one of the conditions of a request, and its acceptance ends it. -/
theorem illegalRequestWords : Obligations.IllegalRequestWords := by
  refine ⟨fun w => ?_, fun s w rest e hb hp hd => ?_⟩
  · rw [exists_decodeRequest_eq_error, exists_decodeRequest_eq_ok, ReservedZero]
    tauto
  · rw [step_illegal hb hp hd, present_error (s := { s with port := rest }) hb]

/-! ## The opcode table's match and mask (R74) -/

/-- A word is its six fields (R70). -/
theorem append_fields (w : ReqWord) : reqOp w ++ reqSub w ++ reqRsv1 w ++ reqA w ++ reqB w ++ reqRsv0 w = w := by
  unfold reqOp reqSub reqRsv1 reqA reqB reqRsv0
  ext i hi
  simp
  grind

theorem reqWord_ext_iff {w v : ReqWord} : w = v ↔ reqOp w = reqOp v ∧ reqSub w = reqSub v ∧ reqRsv1 w = reqRsv1 v ∧
    reqA w = reqA v ∧ reqB w = reqB v ∧ reqRsv0 w = reqRsv0 v := by
  refine ⟨by rintro rfl; simp, ?_⟩
  rintro ⟨ho, hs, h1, ha, hb, h0⟩
  rw [← append_fields w, ← append_fields v, ho, hs, h1, ha, hb, h0]

/-- A row's match is an OP alone, and its mask is OP, RSV1, RSV0 and the bits that R72 marks 0 for that OP. -/
theorem requestTable_fields : ∀ r, r ∈ requestTable →
    reqOp r.pattern ≠ 0 ∧ r.pattern = reqWord (reqOp r.pattern) 0 0 0 ∧
    reqOp r.mask = 0xF ∧ reqRsv1 r.mask = 0xFF ∧ reqRsv0 r.mask = 0xFFFF ∧
    reqSub r.mask = (zeroFields (reqOp r.pattern)).1 ∧ reqA r.mask = (zeroFields (reqOp r.pattern)).2.1 ∧
    reqB r.mask = (zeroFields (reqOp r.pattern)).2.2 := by
  decide

/-- No two rows have one OP, and no two one mnemonic. -/
theorem requestTable_inj : ∀ r, r ∈ requestTable → ∀ q, q ∈ requestTable →
    reqOp r.pattern = reqOp q.pattern ∨ r.mnemonic = q.mnemonic → r = q := by
  decide

/-- A word matches a row where it has the row's OP and its reserved bits are 0. -/
theorem RequestRow.matches_iff {r : RequestRow} (hr : r ∈ requestTable) (w : ReqWord) :
    r.matches w = true ↔ reqOp w = reqOp r.pattern ∧ ReservedZero w := by
  obtain ⟨-, hpattern, hop, hrsv1, hrsv0, hsub, ha, hb⟩ := requestTable_fields r hr
  have op : reqOp (w &&& r.mask) = reqOp w :=
    BitVec.extractLsb'_and.trans ((congrArg _ hop).trans BitVec.and_allOnes)
  have rsv1 : reqRsv1 (w &&& r.mask) = reqRsv1 w :=
    BitVec.extractLsb'_and.trans ((congrArg _ hrsv1).trans BitVec.and_allOnes)
  have rsv0 : reqRsv0 (w &&& r.mask) = reqRsv0 w :=
    BitVec.extractLsb'_and.trans ((congrArg _ hrsv0).trans BitVec.and_allOnes)
  have sub : reqSub (w &&& r.mask) = reqSub w &&& reqSub r.mask := BitVec.extractLsb'_and
  have a : reqA (w &&& r.mask) = reqA w &&& reqA r.mask := BitVec.extractLsb'_and
  have b : reqB (w &&& r.mask) = reqB w &&& reqB r.mask := BitVec.extractLsb'_and
  rw [RequestRow.matches, beq_iff_eq, reqWord_ext_iff, op, rsv1, rsv0, sub, a, b, hsub, ha, hb, hpattern]
  simp only [reqOp_reqWord, reqSub_reqWord, reqA_reqWord, reqB_reqWord, reqRsv1_reqWord, reqRsv0_reqWord]
  constructor
  · rintro ⟨e, zero⟩
    rw [ReservedZero, e]
    tauto
  · rintro ⟨e, zero⟩
    rw [ReservedZero, e] at zero
    tauto

/-- A word matches at most one row. -/
theorem row_eq_of_matches {r q : RequestRow} {w : ReqWord} (hr : r ∈ requestTable) (hq : q ∈ requestTable)
    (h : r.matches w = true) (h' : q.matches w = true) : r = q := by
  obtain ⟨hop, -⟩ := (RequestRow.matches_iff hr w).1 h
  obtain ⟨hop', -⟩ := (RequestRow.matches_iff hq w).1 h'
  exact requestTable_inj r hr q hq (.inl (hop.symm.trans hop'))

/-- A request has a row in the table, under its mnemonic and with its OP. -/
theorem exists_row {i : Instr} (h : i.isRequest = true) :
    ∃ r, r ∈ requestTable ∧ r.mnemonic = i.mnemonic ∧ reqOp r.pattern = reqOp i.word := by
  cases i with
  | powerUp _ | powerDown | setProperty _ _ | getProperty _ | tune _ | seekStart _ _ | getStatus | getTuneStatus _ _
  | getRsqStatus _ | getRevision | getRevisionLong | awaitReady | resolveAddress | configWrite _ _ | noteChipReset =>
    simp [requestTable, Instr.mnemonic, Instr.word, encode]
    rfl
  | wirePowerUp _ _ _ | wireGetRev | wirePowerDown | wireSetProperty _ _ | wireGetProperty _ | wireGetIntStatus
  | wireFmTuneFreq _ | wireFmSeekStart _ _ | wireFmTuneStatus _ _ | wireFmRsqStatus _ | wireAmTuneFreq _
  | wireAmSeekStart _ _ | wireAmTuneStatus _ _ | wireAmRsqStatus _ => simp [Instr.isRequest] at h

/-- A word that is a request matches the row of its mnemonic. -/
theorem exists_row_matches {w : ReqWord} {i : Instr} (h : decodeRequest w = .ok i) :
    ∃ r, r ∈ requestTable ∧ r.mnemonic = i.mnemonic ∧ r.matches w = true := by
  obtain ⟨r, hr, hm, hop⟩ := exists_row (isRequest_of_decodeRequest h)
  rw [word_of_decodeRequest h] at hop
  obtain ⟨-, zero⟩ := (exists_decodeRequest_eq_ok w).1 ⟨i, h⟩
  exact ⟨r, hr, hm, (RequestRow.matches_iff hr w).2 ⟨hop.symm, zero⟩⟩

/-- Settles O3: a match is the row's OP with the reserved bits 0, which is what the decoder asks for; OP and mnemonic each
name one row. -/
theorem requestTableDecides : Obligations.RequestTableDecides := by
  intro w
  refine ⟨fun r hr => ⟨fun h => ?_, ?_⟩, fun r q hr hq => row_eq_of_matches hr hq, ?_⟩
  · obtain ⟨hop, zero⟩ := (RequestRow.matches_iff hr w).1 h
    obtain ⟨hne, -⟩ := requestTable_fields r hr
    obtain ⟨i, hi⟩ := (exists_decodeRequest_eq_ok w).2 ⟨hop ▸ hne, zero⟩
    obtain ⟨q, hq, hm, h'⟩ := exists_row_matches hi
    obtain rfl := row_eq_of_matches hr hq h h'
    exact ⟨i, hi, isRequest_of_decodeRequest hi, hm.symm⟩
  · rintro ⟨i, hi, -, hm⟩
    obtain ⟨q, hq, hm', h'⟩ := exists_row_matches hi
    obtain rfl := requestTable_inj r hr q hq (.inr (hm.symm.trans hm'.symm))
    exact h'
  · rintro ⟨i, hi⟩
    obtain ⟨r, hr, -, h⟩ := exists_row_matches hi
    exact ⟨r, hr, h⟩

/-! ## The frames (R81, R82, R86 to R88, R111) -/

/-- The frame of a well-formed wire frame decodes to it. -/
theorem map_decodeFrame_of_encode {i : Instr} {f : List Byte} (h : encode i = .frame f) (hi : i.wellFormed = true) :
    (some f).map decodeFrame = some (.ok i) := by
  have hd := decodeOfEncode i hi
  rw [h] at hd
  exact congrArg some hd

/-- Settles O6: each request's frame is, byte for byte, the encoding of the wire frame named. -/
theorem framerSendsTheTablesFrames : Obligations.FramerSendsTheTablesFrames := by
  intro m t osc p v f x y
  refine ⟨?_, ?_, ?_, ?_, ?_, ?_, ?_, ?_, ?_, ?_, ?_, ?_, ?_, ?_, ?_⟩ <;> exact map_decodeFrame_of_encode rfl rfl

/-- A wire frame is encoded as its bytes. -/
theorem encode_wire {i : Instr} (h : i.isRequest = false) : encode i = .frame i.frameBytes := by
  cases i with
  | powerUp _ | powerDown | setProperty _ _ | getProperty _ | tune _ | seekStart _ _ | getStatus | getTuneStatus _ _
  | getRsqStatus _ | getRevision | getRevisionLong | awaitReady | resolveAddress | configWrite _ _ | noteChipReset =>
    simp [Instr.isRequest] at h
  | wirePowerUp _ _ _ | wireGetRev | wirePowerDown | wireSetProperty _ _ | wireGetProperty _ | wireGetIntStatus
  | wireFmTuneFreq _ | wireFmSeekStart _ _ | wireFmTuneStatus _ _ | wireFmRsqStatus _ | wireAmTuneFreq _
  | wireAmSeekStart _ _ | wireAmTuneStatus _ _ | wireAmRsqStatus _ => rfl

/-- Every frame is the encoding of a wire frame (R81). -/
theorem exists_encode_of_frame {i : Instr} {m : Mode} {osc : Half} {f : List Byte} (h : frame i m osc = some f) :
    ∃ j, encode j = .frame f := by
  have sent (j : Instr) (hg : some j.frameBytes = some f) (hj : j.isRequest = false) : ∃ j, encode j = .frame f :=
    ⟨j, (encode_wire hj).trans (congrArg _ (Option.some.inj hg))⟩
  cases i with
  | powerUp t => exact sent (.wirePowerUp (osc.getLsbD 0) t 0x05) h rfl
  | powerDown => exact sent .wirePowerDown h rfl
  | setProperty p v => exact sent (.wireSetProperty p v) h rfl
  | getProperty p => exact sent (.wireGetProperty p) h rfl
  | tune x =>
    cases m with
    | fm => exact sent (.wireFmTuneFreq x) h rfl
    | am => exact sent (.wireAmTuneFreq x) h rfl
  | seekStart x y =>
    cases m with
    | fm => exact sent (.wireFmSeekStart x y) h rfl
    | am => exact sent (.wireAmSeekStart x y) h rfl
  | getStatus => exact sent .wireGetIntStatus h rfl
  | getTuneStatus x y =>
    cases m with
    | fm => exact sent (.wireFmTuneStatus x y) h rfl
    | am => exact sent (.wireAmTuneStatus x y) h rfl
  | getRsqStatus y =>
    cases m with
    | fm => exact sent (.wireFmRsqStatus y) h rfl
    | am => exact sent (.wireAmRsqStatus y) h rfl
  | getRevision | getRevisionLong => exact sent .wireGetRev h rfl
  | awaitReady | resolveAddress | configWrite _ _ | noteChipReset => simp [frame] at h
  | wirePowerUp _ _ _ | wireGetRev | wirePowerDown | wireSetProperty _ _ | wireGetProperty _ | wireGetIntStatus
  | wireFmTuneFreq _ | wireFmSeekStart _ _ | wireFmTuneStatus _ _ | wireFmRsqStatus _ | wireAmTuneFreq _
  | wireAmSeekStart _ _ | wireAmTuneStatus _ _ | wireAmRsqStatus _ => exact sent _ h rfl

/-- The encoding of a wire frame begins with the opcode of its row, and has its row's length (R82). -/
theorem frameLength_of_encode {i : Instr} {f : List Byte} (h : encode i = .frame f) :
    ∃ op : WireOp, byteAt f 0 = Config.wireOp op ∧ f.length = op.frameLength := by
  cases i with
  | powerUp _ | powerDown | setProperty _ _ | getProperty _ | tune _ | seekStart _ _ | getStatus | getTuneStatus _ _
  | getRsqStatus _ | getRevision | getRevisionLong | awaitReady | resolveAddress | configWrite _ _ | noteChipReset =>
    simp [encode] at h
  | wirePowerUp => cases h; exact ⟨.powerUp, rfl, rfl⟩
  | wireGetRev => cases h; exact ⟨.getRev, rfl, rfl⟩
  | wirePowerDown => cases h; exact ⟨.powerDown, rfl, rfl⟩
  | wireSetProperty => cases h; exact ⟨.setProperty, rfl, rfl⟩
  | wireGetProperty => cases h; exact ⟨.getProperty, rfl, rfl⟩
  | wireGetIntStatus => cases h; exact ⟨.getIntStatus, rfl, rfl⟩
  | wireFmTuneFreq => cases h; exact ⟨.fmTuneFreq, rfl, rfl⟩
  | wireFmSeekStart => cases h; exact ⟨.fmSeekStart, rfl, rfl⟩
  | wireFmTuneStatus => cases h; exact ⟨.fmTuneStatus, rfl, rfl⟩
  | wireFmRsqStatus => cases h; exact ⟨.fmRsqStatus, rfl, rfl⟩
  | wireAmTuneFreq => cases h; exact ⟨.amTuneFreq, rfl, rfl⟩
  | wireAmSeekStart => cases h; exact ⟨.amSeekStart, rfl, rfl⟩
  | wireAmTuneStatus => cases h; exact ⟨.amTuneStatus, rfl, rfl⟩
  | wireAmRsqStatus => cases h; exact ⟨.amRsqStatus, rfl, rfl⟩

theorem WireOp.frameLength_bounds (op : WireOp) : 1 ≤ op.frameLength ∧ op.frameLength ≤ 6 := by
  cases op <;> decide

/-- Settles O7: a frame is the encoding of a wire frame, and the fourteen opcodes have R82's lengths. -/
theorem frameLengthByFirstByte : Obligations.FrameLengthByFirstByte := by
  intro i m osc f h
  obtain ⟨j, hj⟩ := exists_encode_of_frame h
  obtain ⟨op, hfirst, hlength⟩ := frameLength_of_encode hj
  obtain ⟨hlow, hhigh⟩ := WireOp.frameLength_bounds op
  rw [hfirst, hlength]
  refine ⟨hlow, hhigh, _, ?_, rfl⟩
  cases op <;> decide

/-! ## The frames that are written (R81 to R83) -/

/-- Where SEQ holds only R81's frames, a step may send no other. -/
theorem MaySend.frameOk {s : State} {f : List Byte} (h : MaySend s f) (hs : ∀ m, m ∈ s.seq → m.legal = true) :
    frameOk f = true := by
  rcases h with ⟨-, rfl⟩ | ⟨rest, -, -, hq⟩
  · exact frameOk_getIntStatus
  · exact hs (.wr f) (by simp [hq])

/-- A step that may send only R81's frames writes no other. -/
theorem StatusEffect.trace_frameOk {s t : State} (h : StatusEffect s t) (may : ∀ f, MaySend s f → frameOk f = true)
    (hs : ∀ a f r, Event.write a f r ∈ s.trace → frameOk f = true) :
    ∀ a f r, Event.write a f r ∈ t.trace → frameOk f = true := by
  have appended {e : Event} (trace : t.trace = s.trace ++ [e]) (he : ∀ a f r, e = .write a f r → frameOk f = true)
      (a : Addr) (f : List Byte) (r : WriteAnswer) (hm : Event.write a f r ∈ t.trace) : frameOk f = true := by
    rw [trace, List.mem_append, List.mem_singleton] at hm
    exact hm.elim (hs a f r) fun now => he a f r now.symm
  cases h with
  | quiet trace | noted _ trace => exact trace ▸ hs
  | received _ trace | missed _ trace => exact appended trace (by rintro _ _ _ ⟨⟩)
  | sent _ trace ok => exact appended trace (by rintro _ _ _ ⟨⟩; exact may _ ok)
  | aside trace _ noWrite => exact appended trace (by rintro _ _ _ rfl; cases noWrite)

/-- Settles O55: SEQ stays legal, and a frame written comes from SEQ or is GET_INT_STATUS. -/
theorem stepKeepsFrameInv : Obligations.StepKeepsFrameInv := by
  rintro s t ⟨hs, ht⟩ h
  exact ⟨step_seq_legal h hs, (step_statusEffect h).trace_frameOk (fun _ may => may.frameOk hs) ht⟩

/-! ## The assembler's numbers (R76, R77) -/

/-- A number that fits its field is taken. -/
theorem fitNumber_fits {word : String} {n k : Nat} (h : parseNumber word = some n) (hn : n < 2 ^ k) :
    fitNumber k word = .ok (BitVec.ofNat k n) := by
  simp [fitNumber, h, hn]

/-- A number that does not fit its field is refused. -/
theorem fitNumber_wide {word : String} {n k : Nat} (h : parseNumber word = some n) (hn : 2 ^ k ≤ n) :
    fitNumber k word = .error .doesNotFit := by
  simp [fitNumber, h, hn]

section Lines

/-! The lines with one or two numbers, by the last number of the line. -/

variable {a b : String} {m n : Nat} (hb : parseNumber b = some n)
include hb

theorem asmOne_fits (hn : n < 65536) (k : Half → List Instr) : asmOne b k = .ok (k (BitVec.ofNat 16 n)) := by
  simp [asmOne, fitNumber_fits (k := 16) hb hn]

theorem asmOne_wide (hn : 65536 ≤ n) (k : Half → List Instr) : asmOne b k = .error .doesNotFit := by
  simp [asmOne, fitNumber_wide (k := 16) hb hn]

theorem asmTwo_fits (ha : parseNumber a = some m) (hm : m < 65536) (hn : n < 65536) (k : Half → Half → List Instr) :
    asmTwo a b k = .ok (k (BitVec.ofNat 16 m) (BitVec.ofNat 16 n)) := by
  simp [asmTwo, fitNumber_fits (k := 16) ha hm, asmOne_fits hb hn]

theorem asmTwo_wide (ha : parseNumber a = some m) (h : 65536 ≤ m ∨ 65536 ≤ n) (k : Half → Half → List Instr) :
    asmTwo a b k = .error .doesNotFit := by
  by_cases hm : m < 65536
  · simp [asmTwo, fitNumber_fits (k := 16) ha hm, asmOne_wide hb (h.resolve_left (by omega))]
  · simp [asmTwo, fitNumber_wide (k := 16) ha (Nat.le_of_not_lt hm)]

theorem asmConfigWrite_fits {i : Byte} (hi : cfgIndex a = .ok i) (hn : n < 65536) :
    asmConfigWrite a b = .ok [.configWrite i (BitVec.ofNat 16 n)] := by
  simp [asmConfigWrite, hi, asmOne_fits hb hn]

theorem asmConfigWrite_wide {i : Byte} (hi : cfgIndex a = .ok i) (hn : 65536 ≤ n) :
    asmConfigWrite a b = .error .doesNotFit := by
  simp [asmConfigWrite, hi, asmOne_wide hb hn]

end Lines

/-- A CFG index that does not fit refuses its line, whatever the value is. -/
theorem asmConfigWrite_of_error {a : String} {e : AsmError} (h : cfgIndex a = .error e) (b : String) :
    asmConfigWrite a b = .error e := by
  simp [asmConfigWrite, h]

/-- A CFG name stands for its register's index (R24, R76). -/
theorem cfgIndex_of_name : ∀ row, row ∈ cfgNames → cfgIndex row.1 = .ok row.2.index := by decide

/-- No CFG name is a number, so a number is read as one. -/
theorem cfgIndex_of_number {a : String} {n : Nat} (h : parseNumber a = some n) : cfgIndex a = fitNumber 8 a := by
  have nameIsNoNumber : ∀ row, row ∈ cfgNames → parseNumber row.1 = none := by decide
  have notName : (cfgNames.find? fun row => row.1 == a) = none := by
    rw [List.find?_eq_none]
    intro row hrow e
    have := nameIsNoNumber row hrow
    simp [eq_of_beq e, h] at this
  rw [cfgIndex, notName]

/-- Settles O59: each line is a line with one number, with two, or a CONFIG_WRITE by a number or by a name. -/
theorem assemblerRefusesWideNumbers : Obligations.AssemblerRefusesWideNumbers := by
  refine ⟨fun word n h => ⟨fun hn => ?_, fun hn => ?_⟩,
    fun first second m n hf hs => ⟨fun h => ?_, fun hm hn => ?_, fun h => ?_, fun hm hn => ?_⟩,
    fun name value index n hv hi => ?_, rfl, fun lo hi => ⟨rfl, rfl, rfl⟩⟩
  · exact ⟨asmOne_wide h hn _, asmOne_wide h hn _, asmOne_wide h hn _⟩
  · exact ⟨asmOne_fits h hn _, asmOne_fits h hn _, asmOne_fits h hn _⟩
  · exact ⟨asmTwo_wide hs hf h _, asmTwo_wide hs hf h _, asmTwo_wide hs hf h _⟩
  · exact ⟨asmTwo_fits hs hf hm hn _, asmTwo_fits hs hf hm hn _, asmTwo_fits hs hf hm hn _⟩
  · by_cases hm : m < 256
    · exact asmConfigWrite_wide hs ((cfgIndex_of_number hf).trans (fitNumber_fits hf hm)) (h.resolve_left (by omega))
    · exact asmConfigWrite_of_error ((cfgIndex_of_number hf).trans (fitNumber_wide hf (Nat.le_of_not_lt hm))) second
  · exact asmConfigWrite_fits hs ((cfgIndex_of_number hf).trans (fitNumber_fits hf hm)) hn
  · have index : cfgIndex name = .ok index := by
      have listed : (name, index) ∈ cfgNames.map fun row => (row.1, row.2.index) := hi
      obtain ⟨row, hrow, ⟨⟩⟩ := List.mem_map.1 listed
      exact cfgIndex_of_name row hrow
    exact ⟨asmConfigWrite_wide hv index, asmConfigWrite_fits hv index⟩

end Sys2Proof.Machine

/-! PROOF. The command requests (40_command_framer.md R100 to R115): what each is accepted with or refused for, and its
run from acceptance to its end. -/

namespace Sys2Proof.Machine

/-! ## Acceptance (R100 to R110, R114, R115) -/

/-- A TUNE operand outside the band of MODE is refused (R115). -/
theorem execWith_tune_illegal (p : Params) {s : State} {a : Addr} {m : Mode} {f : Half} (hb : s.busy = false)
    (ha : s.addr = some a) (hm : s.mode = some m) (h : bandLegal s.cfg m f = false) : execWith p (.tune f) s =
      .next (rejectedWith (Instr.tune f).word .invalidArgument s) := by
  simp [execWith, execTune, needLegal, h, needAddr_some ha, needMode_some hm, present_error hb]

/-- Settles O15: the programs of R100 and R101, with the spec's parameters. -/
theorem powerRequestsAccepted : Obligations.PowerRequestsAccepted := by
  intro s a m hb ha
  refine ⟨?_, execWith_powerDown Params.spec hb ha⟩
  rw [← settleUp_eq]
  exact execWith_powerUp Params.spec hb ha m

/-- Settles O16: with ADDR valid, each request that needs no more is accepted; SET_PROPERTY has R114's range to meet. -/
theorem addressRequestsAccepted : Obligations.AddressRequestsAccepted := by
  intro s a p v hb ha
  refine ⟨fun h => ?_, execWith_getProperty Params.spec hb ha p, execWith_getStatus Params.spec hb ha,
    execWith_getRevision Params.spec hb ha, execWith_getRevisionLong Params.spec hb ha,
    congrArg _ (present_needAddr hb ha _ _)⟩
  exact execWith_setProperty_legal Params.spec hb ha ((propertyLegal_iff p v _).2 h)

/-- Settles O17: the frame and the record kind of each program are those of MODE; TUNE has R115's range to meet. -/
theorem modeRequestsAccepted : Obligations.ModeRequestsAccepted := by
  intro s a f x y hb ha
  refine ⟨fun hm => ⟨fun hlo hhi => ?_, execWith_seekStart Params.spec hb ha hm x y,
    execWith_getTuneStatus Params.spec hb ha hm x y, execWith_getRsqStatus Params.spec hb ha hm y⟩,
    fun hm => ⟨fun hlo hhi => ?_, execWith_seekStart Params.spec hb ha hm x y,
    execWith_getTuneStatus Params.spec hb ha hm x y, execWith_getRsqStatus Params.spec hb ha hm y⟩⟩
  all_goals exact execWith_tune_legal Params.spec hb ha hm ((bandLegal_iff s.cfg _ f).2 ⟨hlo, hhi⟩)

/-- Settles O19: R114's range decides between the check's code and the program. -/
theorem volumeRange : Obligations.VolumeRange := by
  intro s a v hb ha
  refine ⟨fun hv => ?_, fun hv => ?_⟩
  · have h : propertyLegal 0x4000 v = false := Bool.eq_false_iff.2 fun legal =>
      ((propertyLegal_iff _ v _).1 legal).elim (· rfl) (BitVec.not_le.2 hv)
    exact execWith_setProperty_illegal Params.spec hb ha h
  · exact execWith_setProperty_legal Params.spec hb ha ((propertyLegal_iff 0x4000 v _).2 (.inr hv))

/-- Settles O20: R115's range decides between the check's code and the program. -/
theorem bandRange : Obligations.BandRange := by
  intro s a m f hb ha hm lo hi
  have legal : bandLegal s.cfg m f = true ↔ lo.toNat ≤ f.toNat ∧ f.toNat ≤ hi.toNat := by
    cases m <;> exact bandLegal_iff s.cfg _ f
  refine ⟨fun h => ?_, fun h => ⟨_, execWith_tune_legal Params.spec hb ha hm (legal.2 h)⟩⟩
  exact execWith_tune_illegal Params.spec hb ha hm (Bool.eq_false_iff.2 (mt legal.1 h))

/-! ## The frequency (R112, R154, R158) -/

/-- A tune frame carries the frequency big-endian, high byte first (R112). -/
theorem tuneFrame_bytes (m : Mode) (f : Half) :
    byteAt (tuneFrame m f) 2 = hi8 f ∧ byteAt (tuneFrame m f) 3 = lo8 f := by
  cases m <;> exact ⟨rfl, rfl⟩

/-- A tune-status record of seven bytes reads bytes 2 and 3 as READFREQ, at the scale of its kind (R154). -/
theorem parse_tuneStatus (m : Mode) {r : List Byte} (h : r.length = 7) :
    ∃ x, parse (tuneStatusKind m) r = .ok x ∧ x.readfreq? = some (u16At r 2) ∧
      x.readfreqKhz? = some (freqKhz m (u16At r 2)) := by
  have len : (tuneStatusKind m).len = 7 := by cases m <;> rfl
  rw [parse, len, h]
  cases m <;> exact ⟨_, rfl, rfl, rfl⟩

/-- Settles O8: both sides put the high byte in byte 2 and the low byte in byte 3. -/
theorem frequencyRoundTrip : Obligations.FrequencyRoundTrip := by
  intro m f
  obtain ⟨hi, lo⟩ := tuneFrame_bytes m f
  rw [hi, lo]
  refine ⟨be16_hi8_lo8 f, fun r hr h2 h3 => ?_⟩
  have echo : u16At r 2 = f := by rw [u16At, h2, h3, be16_hi8_lo8]
  exact echo ▸ parse_tuneStatus m hr

/-! ## The answers the transport has ready (R50) -/

theorem Transport.nextWrite_of_cons {t : Transport} {r : WriteAnswer} {ws : List WriteAnswer} (h : t.writes = r :: ws) :
    t.nextWrite = r := by simp [Transport.nextWrite, h]

theorem Transport.afterWrite_of_cons {t : Transport} {r : WriteAnswer} {ws : List WriteAnswer}
    (h : t.writes = r :: ws) : t.afterWrite = { t with writes := ws } := by simp [Transport.afterWrite, h]

theorem Transport.nextRead_of_cons {t : Transport} {r : ReadAnswer} {rs : List ReadAnswer} (h : t.reads = r :: rs) :
    t.nextRead = r := by simp [Transport.nextRead, h]

theorem Transport.afterRead_of_cons {t : Transport} {r : ReadAnswer} {rs : List ReadAnswer} (h : t.reads = r :: rs) :
    t.afterRead = { t with reads := rs } := by simp [Transport.afterRead, h]

/-! ## One event whose answer is ready (R55, R141, R170 to R172) -/

/-- What a frame write that the bus answers `r` leaves: the event, CTS_SEEN cleared, `ws` the write answers to come. -/
def written (a : Addr) (f : List Byte) (r : WriteAnswer) (ws : List WriteAnswer) (s : State) : State :=
  { s with ctsSeen := false, trace := s.trace ++ [.write a f r], bus := { s.bus with writes := ws } }

/-- What a poll that shows CTS leaves: the event, the attempt counted, the byte observed, `rs` the read answers to come;
the wait goes to `w`. -/
def shown (a : Addr) (b : Byte) (rs : List ReadAnswer) (w : WState) (s : State) : State :=
  { s with
    attempts := s.attempts + 1, wstate := w, lastStatus := b, ctsSeen := true, errSeen := s.errSeen || b.getLsbD 6,
    trace := s.trace ++ [.read a 1 (.bytes [b])], bus := { s.bus with reads := rs } }

section Event

variable {p : Params} {s : State} {a : Addr} {b : Byte} {ws : List WriteAnswer} {rs : List ReadAnswer}

theorem wr_written (ha : s.addr = some a) (hw : s.bus.writes = .ok :: ws) (f : List Byte) :
    wr f s = written a f .ok ws s := by
  rw [wr_ok ha (Transport.nextWrite_of_cons hw), Transport.afterWrite_of_cons hw, written]

theorem wr_failed (ha : s.addr = some a) (hw : s.bus.writes = .busErr :: ws) (f : List Byte) :
    wr f s = finish .busError (written a f .busErr ws s) := by
  rw [wr_busErr ha (Transport.nextWrite_of_cons hw), Transport.afterWrite_of_cons hw, written]

/-- The byte of a poll that shows CTS, counted and observed. -/
theorem observe_busRead_eq_shown (hr : s.bus.reads = .bytes [b] :: rs) (h7 : b.getLsbD 7 = true) (a : Addr)
    (w : WState) : { observe b { busRead a 1 s with attempts := s.attempts + 1 } with wstate := w } =
      shown a b rs w s := by
  have h6 : errCounts b = b.getLsbD 6 := by simp only [errCounts, statusCts, statusErr, h7, Bool.true_and]
  simp only [observe, busRead, emit, shown, h6, statusCts, h7, Transport.nextRead_of_cons hr,
    Transport.afterRead_of_cons hr]

/-- An STC wait asks for CTS and STC, which the spec has in bits 7 and 0 (R89, R175). -/
theorem waitDone_stc (b : Byte) : waitDone .stc b = (b.getLsbD 7 && b.getLsbD 0) := rfl

/-- A wait polls at once, but for an STC wait that has seen CTS (R171, R172). -/
theorem pollStep_eq_poll (h : s.wkind = .cts ∨ s.ctsSeen = false) : pollStep s p = poll s p := by
  rcases pollStep_cases s p with e | ⟨hk, hc, -⟩
  · exact e
  · simp [hk, hc] at h

/-- A poll whose byte meets the wait's condition ends the wait. -/
theorem pollStep_done (h : s.wkind = .cts ∨ s.ctsSeen = false) (ha : s.addr = some a)
    (hr : s.bus.reads = .bytes [b] :: rs) (h7 : b.getLsbD 7 = true) (hd : waitDone s.wkind b p = true) :
    pollStep s p = shown a b rs .idle s := by
  rw [pollStep_eq_poll h, poll_byte ha (Transport.nextRead_of_cons hr), ← observe_busRead_eq_shown hr h7]
  rcases polled_cases b (busRead a 1 s) p with ⟨-, e⟩ | ⟨hn, -⟩ | ⟨hn, -⟩
  · exact e
  all_goals exact absurd hd (by simpa using hn)

/-- A poll that shows CTS alone puts an STC wait with attempts left to sleep. -/
theorem pollStep_sleeps (h : s.ctsSeen = false) (ha : s.addr = some a) (hr : s.bus.reads = .bytes [b] :: rs)
    (h7 : b.getLsbD 7 = true) (hd : waitDone s.wkind b p = false) (hl : s.attempts + 1 < waitLimit s.wkind s.cfg) :
    pollStep s p = shown a b rs .sleep s := by
  rw [pollStep_eq_poll (.inr h), poll_byte ha (Transport.nextRead_of_cons hr), ← observe_busRead_eq_shown hr h7]
  rcases polled_cases b (busRead a 1 s) p with ⟨hn, -⟩ | ⟨-, hn, -⟩ | ⟨-, -, e⟩
  · exact absurd hd (by simpa using hn)
  · exact absurd hl (BitVec.not_lt.2 hn)
  · exact e

/-- A wait whose first poll meets its condition ends in the step it starts in. -/
theorem startWait_done {k : WKind} (h : k = .cts ∨ s.ctsSeen = false) (ha : s.addr = some a)
    (hr : s.bus.reads = .bytes [b] :: rs) (h7 : b.getLsbD 7 = true) (hd : waitDone k b p = true) :
    startWait k s p = shown a b rs .idle { s with wkind := k, attempts := 0, wstate := .poll } :=
  pollStep_done (s := { s with wkind := k, attempts := 0, wstate := .poll }) h ha hr h7 hd

/-- An STC wait whose first poll shows CTS alone goes to sleep, where the limit lets it poll again. -/
theorem startWait_sleeps (h : s.ctsSeen = false) (ha : s.addr = some a) (hr : s.bus.reads = .bytes [b] :: rs)
    (h7 : b.getLsbD 7 = true) (hd : waitDone .stc b p = false) (hl : 1 < s.cfg.stcMaxAttempts) :
    startWait .stc s p = shown a b rs .sleep { s with wkind := .stc, attempts := 0, wstate := .poll } :=
  pollStep_sleeps (s := { s with wkind := .stc, attempts := 0, wstate := .poll }) h ha hr h7 hd hl

end Event

/-! ## One step of a program, its answer ready (R100 to R105, R171 to R174, R196, R197) -/

section Step

variable {p : Params} {s : State} {a : Addr} {b : Byte} {f : List Byte} {rest : List MicroOp} {ws : List WriteAnswer}
  {rs : List ReadAnswer}

theorem stepWith_wr_written (h : AtMicro (.wr f) rest s) (ha : s.addr = some a) (hw : s.bus.writes = .ok :: ws) :
    stepWith p s = .next (written a f .ok ws { s with seq := rest }) :=
  (stepWith_atMicro h).trans (congrArg _ (wr_written (s := { s with seq := rest }) ha hw f))

theorem stepWith_wr_failed (h : AtMicro (.wr f) rest s) (ha : s.addr = some a) (hw : s.bus.writes = .busErr :: ws) :
    stepWith p s = .next (finish .busError (written a f .busErr ws { s with seq := rest })) :=
  (stepWith_atMicro h).trans (congrArg _ (wr_failed (s := { s with seq := rest }) ha hw f))

theorem stepWith_waitCts_done (h : AtMicro .waitCts rest s) (ha : s.addr = some a) (hr : s.bus.reads = .bytes [b] :: rs)
    (h7 : b.getLsbD 7 = true) :
    stepWith p s = .next (shown a b rs .idle { s with seq := rest, wkind := .cts, attempts := 0, wstate := .poll }) :=
  (stepWith_atMicro h).trans (congrArg _ (startWait_done (s := { s with seq := rest }) (.inl rfl) ha hr h7 h7))

/-- PRE where CTS has not been seen is a CTS wait (R174). -/
theorem stepWith_pre_done (h : AtMicro .pre rest s) (hc : s.ctsSeen = false) (ha : s.addr = some a)
    (hr : s.bus.reads = .bytes [b] :: rs) (h7 : b.getLsbD 7 = true) :
    stepWith p s = .next (shown a b rs .idle { s with seq := rest, wkind := .cts, attempts := 0, wstate := .poll }) := by
  rw [stepWith_atMicro h, runMicro, pre, if_neg (by simp [hc])]
  exact congrArg _ (startWait_done (s := { s with seq := rest }) (.inl rfl) ha hr h7 h7)

theorem stepWith_waitStc_done (h : AtMicro .waitStc rest s) (hc : s.ctsSeen = false) (ha : s.addr = some a)
    (hr : s.bus.reads = .bytes [b] :: rs) (h7 : b.getLsbD 7 = true) (hd : waitDone .stc b p = true) :
    stepWith p s = .next (shown a b rs .idle { s with seq := rest, wkind := .stc, attempts := 0, wstate := .poll }) :=
  (stepWith_atMicro h).trans (congrArg _ (startWait_done (s := { s with seq := rest }) (.inr hc) ha hr h7 hd))

theorem stepWith_waitStc_sleeps (h : AtMicro .waitStc rest s) (hc : s.ctsSeen = false) (ha : s.addr = some a)
    (hr : s.bus.reads = .bytes [b] :: rs) (h7 : b.getLsbD 7 = true) (hd : waitDone .stc b p = false)
    (hl : 1 < s.cfg.stcMaxAttempts) :
    stepWith p s = .next (shown a b rs .sleep { s with seq := rest, wkind := .stc, attempts := 0, wstate := .poll }) :=
  (stepWith_atMicro h).trans (congrArg _ (startWait_sleeps (s := { s with seq := rest }) hc ha hr h7 hd hl))

/-- The sleep of a wait (R175). -/
theorem stepWith_sleep (hb : s.busy = true) (hw : s.wstate = .sleep) :
    stepWith p s = .next { delay s.cfg.pollIntervalMs s with wstate := .poll } := by
  rw [stepWith_wait p hb (by simp [hw]), waitStep, hw]

theorem stepWith_stc_written (hb : s.busy = true) (hs : s.wstate = .poll) (hk : s.wkind = .stc) (hc : s.ctsSeen = true)
    (ha : s.addr = some a) (hw : s.bus.writes = .ok :: ws) :
    stepWith p s = .next (written a (getIntStatusFrame p) .ok ws s) := by
  rw [stepWith_wait p hb (by simp [hs]), waitStep_stc_seen hs hk hc, wr_written ha hw]

theorem stepWith_stc_done (hb : s.busy = true) (hs : s.wstate = .poll) (hk : s.wkind = .stc) (hc : s.ctsSeen = false)
    (ha : s.addr = some a) (hr : s.bus.reads = .bytes [b] :: rs) (h7 : b.getLsbD 7 = true)
    (hd : waitDone .stc b p = true) : stepWith p s = .next (shown a b rs .idle s) := by
  rw [stepWith_wait p hb (by simp [hs]), waitStep, hs]
  exact congrArg _ (pollStep_done (.inr hc) ha hr h7 (hk ▸ hd))

end Step

/-! ## Runs (R100 to R110, R197) -/

/-- A run with the spec's parameters is a run. -/
theorem runStepsWith_spec (n : Nat) (s : State) : runStepsWith Params.spec n s = runSteps n s := by
  induction n generalizing s with
  | zero => rfl
  | succ n ih =>
    have first : (coreWith Params.spec).step s = Sys2Proof.core.step s := stepWith_spec s
    simp only [runStepsWith, runSteps, Host.Core.run, first]
    cases Sys2Proof.core.step s with
    | next t => exact ih t
    | fault r => rfl
    | refused r => rfl

/-- A run of the final `finish` alone (R197 (e)). -/
theorem run_done {p : Params} {s : State} (hb : s.busy = true) (hw : s.wstate = .idle) (hs : s.seq = []) :
    runStepsWith p 1 s = .next (complete s) :=
  runStepsWith_succ (stepWith_done p hb hw hs)

/-- A query that is accepted with its program runs as R103 and R106 to R110 say. -/
theorem queryRuns_of_accepted {i : Instr} {f : List Byte} {n : Nat} {k : Kind} {s : State} (hi : s.wstate = .idle)
    (accepted : ∀ a, s.addr = some a → exec i s = .next (acceptedWith i.word (queryProgram f n k) s)) :
    QueryRuns i f n k s := by
  intro a b r ws rs ha hc hw hr h7 hn
  refine ⟨_, accepted a ha, ?_⟩
  rw [← runStepsWith_spec]
  exact run_queryProgram Params.spec hi ha hc hw hr h7 hn _ f k

/-- Settles O36: each query is accepted with its program, and every such program runs alike. -/
theorem queriesRun : Obligations.QueriesRun := by
  intro s p x y hb hi
  exact ⟨queryRuns_of_accepted hi fun a ha => execWith_getProperty Params.spec hb ha p,
    queryRuns_of_accepted hi fun a ha => execWith_getStatus Params.spec hb ha,
    queryRuns_of_accepted hi fun a ha => execWith_getRevision Params.spec hb ha,
    queryRuns_of_accepted hi fun a ha => execWith_getRevisionLong Params.spec hb ha,
    fun hm => ⟨queryRuns_of_accepted hi fun a ha => execWith_getTuneStatus Params.spec hb ha hm x y,
      queryRuns_of_accepted hi fun a ha => execWith_getRsqStatus Params.spec hb ha hm y⟩,
    fun hm => ⟨queryRuns_of_accepted hi fun a ha => execWith_getTuneStatus Params.spec hb ha hm x y,
      queryRuns_of_accepted hi fun a ha => execWith_getRsqStatus Params.spec hb ha hm y⟩⟩

/-- A tuning command sent at once whose first poll shows CTS and STC (R104, R105). -/
theorem tuningRuns_of_accepted {i : Instr} {f : List Byte} {s : State} (hi : s.wstate = .idle)
    (accepted : ∀ a, s.addr = some a → exec i s = .next (acceptedWith i.word (tuningProgram f) s)) :
    TuningRuns i f s := by
  intro a b c ws rs ha hc hw hr hb7 hb0 hc7
  refine ⟨_, accepted a ha, ?_⟩
  have done : waitDone .stc b = true := by rw [waitDone_stc, hb7, hb0, Bool.and_true]
  rw [← runStepsWith_spec]
  -- The steps of R197: PRE, WR, WAIT_STC, WAIT_CTS and the final `finish`.
  refine Eq.trans (runStepsWith_succ (stepWith_pre_seen ⟨rfl, hi, rfl⟩ hc)) ?_
  refine Eq.trans (runStepsWith_succ (stepWith_wr_written ⟨rfl, hi, rfl⟩ ha hw)) ?_
  refine Eq.trans (runStepsWith_succ (stepWith_waitStc_done ⟨rfl, hi, rfl⟩ rfl ha hr hb7 done)) ?_
  refine Eq.trans (runStepsWith_succ (stepWith_waitCts_done ⟨rfl, rfl, rfl⟩ ha rfl hc7)) ?_
  refine Eq.trans (run_done rfl rfl rfl) ?_
  simp [complete, finish, shown, written, endedWith, acceptedWith, endCode]

/-- A tuning command sent at once whose second poll shows STC: the STC wait sleeps once, then sends GET_INT_STATUS
(R172). -/
theorem tuningRunsInTwoAttempts_of_accepted {i : Instr} {f : List Byte} {s : State} (hi : s.wstate = .idle)
    (accepted : ∀ a, s.addr = some a → exec i s = .next (acceptedWith i.word (tuningProgram f) s)) :
    TuningRunsInTwoAttempts i f s := by
  intro a b c d ws rs ha hc hw hr hb7 hb0 hc7 hc0 hd7 hmax
  refine ⟨_, accepted a ha, ?_⟩
  have notDone : waitDone .stc b = false := by rw [waitDone_stc, hb0, Bool.and_false]
  have done : waitDone .stc c = true := by rw [waitDone_stc, hc7, hc0, Bool.and_true]
  have attemptLeft : 1 < s.cfg.stcMaxAttempts := by bv_omega
  rw [← runStepsWith_spec]
  -- The steps of R197: PRE, WR, the STC wait's poll, sleep, write and poll, WAIT_CTS and the final `finish`.
  refine Eq.trans (runStepsWith_succ (stepWith_pre_seen ⟨rfl, hi, rfl⟩ hc)) ?_
  refine Eq.trans (runStepsWith_succ (stepWith_wr_written ⟨rfl, hi, rfl⟩ ha hw)) ?_
  refine Eq.trans (runStepsWith_succ (stepWith_waitStc_sleeps ⟨rfl, hi, rfl⟩ rfl ha hr hb7 notDone attemptLeft)) ?_
  refine Eq.trans (runStepsWith_succ (stepWith_sleep rfl rfl)) ?_
  refine Eq.trans (runStepsWith_succ (stepWith_stc_written rfl rfl rfl rfl ha rfl)) ?_
  refine Eq.trans (runStepsWith_succ (stepWith_stc_done rfl rfl rfl rfl ha rfl hc7 done)) ?_
  refine Eq.trans (runStepsWith_succ (stepWith_waitCts_done ⟨rfl, rfl, rfl⟩ ha rfl hd7)) ?_
  refine Eq.trans (run_done rfl rfl rfl) ?_
  simp [complete, finish, shown, written, delay, emit, endedWith, acceptedWith, endCode, getIntStatusFrame,
    Config.wireOp]

/-- Settles O35: in either mode each tuning command is accepted with its program, and every such program runs alike. -/
theorem tuningRequestsRun : Obligations.TuningRequestsRun := by
  intro s f up wrap hb hi
  have runs {i : Instr} {q : List Byte}
      (h : ∀ a, s.addr = some a → exec i s = .next (acceptedWith i.word (tuningProgram q) s)) :
      TuningRuns i q s ∧ TuningRunsInTwoAttempts i q s :=
    ⟨tuningRuns_of_accepted hi h, tuningRunsInTwoAttempts_of_accepted hi h⟩
  refine ⟨fun hm => ⟨fun hlo hhi => ?_, runs fun a ha => execWith_seekStart Params.spec hb ha hm up wrap⟩,
    fun hm => ⟨fun hlo hhi => ?_, runs fun a ha => execWith_seekStart Params.spec hb ha hm up wrap⟩⟩
  all_goals exact runs fun a ha =>
    execWith_tune_legal Params.spec hb ha hm ((bandLegal_iff s.cfg _ f).2 ⟨hlo, hhi⟩)

/-- The first four steps of POWER_UP and of POWER_DOWN, sent at once: PRE, INVMODE, WR and SETTLE (R100, R101). -/
theorem run_power {p : Params} {s : State} {a : Addr} {ws : List WriteAnswer} {w : ReqWord} {f : List Byte} {ms : Half}
    {rest : List MicroOp} {n : Nat} (hi : s.wstate = .idle) (ha : s.addr = some a) (hc : s.ctsSeen = true)
    (hw : s.bus.writes = .ok :: ws) :
    runStepsWith p (n + 4) (acceptedWith w (.pre :: .invMode :: .wr f :: .settle ms :: rest) s) =
      runStepsWith p n (delay ms (written a f .ok ws (invMode (acceptedWith w rest s)))) := by
  refine Eq.trans (runStepsWith_succ (stepWith_pre_seen ⟨rfl, hi, rfl⟩ hc)) ?_
  refine Eq.trans (runStepsWith_succ (stepWith_atMicro (m := .invMode) ⟨rfl, hi, rfl⟩)) ?_
  refine Eq.trans (runStepsWith_succ (stepWith_wr_written ⟨rfl, hi, rfl⟩ ha hw)) ?_
  exact runStepsWith_succ (stepWith_atMicro (m := .settle ms) ⟨rfl, hi, rfl⟩)

/-- The first five steps of POWER_UP, sent at once: those of `run_power`, and a CTS wait whose first poll shows CTS. -/
theorem run_powerUp_frame {p : Params} {s : State} {a : Addr} {b : Byte} {ws : List WriteAnswer} {rs : List ReadAnswer}
    {w : ReqWord} {f : List Byte} {ms : Half} {rest : List MicroOp} {n : Nat} (hi : s.wstate = .idle)
    (ha : s.addr = some a) (hc : s.ctsSeen = true) (hw : s.bus.writes = .ok :: ws)
    (hr : s.bus.reads = .bytes [b] :: rs) (h7 : b.getLsbD 7 = true) :
    runStepsWith p (n + 5) (acceptedWith w (.pre :: .invMode :: .wr f :: .settle ms :: .waitCts :: rest) s) =
      runStepsWith p n (shown a b rs .idle { delay ms (written a f .ok ws (invMode (acceptedWith w rest s))) with
        wkind := .cts, attempts := 0, wstate := .poll }) := by
  refine Eq.trans (run_power hi ha hc hw) ?_
  exact runStepsWith_succ (stepWith_waitCts_done ⟨rfl, hi, rfl⟩ ha hr h7)

/-- A frame and the CTS wait after it, whose first poll shows CTS (R100, R102). -/
theorem run_wr_waitCts {p : Params} {s : State} {a : Addr} {b : Byte} {f : List Byte} {rest : List MicroOp}
    {ws : List WriteAnswer} {rs : List ReadAnswer} {n : Nat} (h : AtMicro (.wr f) (.waitCts :: rest) s)
    (ha : s.addr = some a) (hw : s.bus.writes = .ok :: ws) (hr : s.bus.reads = .bytes [b] :: rs)
    (h7 : b.getLsbD 7 = true) : runStepsWith p (n + 2) s = runStepsWith p n (shown a b rs .idle
      { written a f .ok ws s with seq := rest, wkind := .cts, attempts := 0, wstate := .poll }) := by
  have ⟨hb, hi, _⟩ := h
  refine Eq.trans (runStepsWith_succ (stepWith_wr_written h ha hw)) ?_
  exact runStepsWith_succ (stepWith_waitCts_done ⟨hb, hi, rfl⟩ ha hr h7)

/-- Settles O31: where CTS has not been seen, PRE polls first; the rest of the run is the same. -/
theorem setPropertyRuns : Obligations.SetPropertyRuns := by
  intro s a p v b c ws rs hb hi ha legal hw hb7 hc7
  have accepted := (addressRequestsAccepted s a p v hb ha).1 legal
  refine ⟨fun hc hr => ⟨_, accepted, ?_⟩, fun hc hr => ⟨_, accepted, ?_⟩⟩ <;> rw [← runStepsWith_spec]
  · refine Eq.trans (runStepsWith_succ (stepWith_pre_seen ⟨rfl, hi, rfl⟩ hc)) ?_
    refine Eq.trans (run_wr_waitCts ⟨rfl, hi, rfl⟩ ha hw hr hb7) ?_
    refine Eq.trans (run_done rfl rfl rfl) ?_
    simp [complete, finish, shown, written, endedWith, acceptedWith, endCode, hc]
  · refine Eq.trans (runStepsWith_succ (stepWith_pre_done ⟨rfl, hi, rfl⟩ hc ha hr hb7)) ?_
    refine Eq.trans (run_wr_waitCts ⟨rfl, rfl, rfl⟩ ha hw rfl hc7) ?_
    refine Eq.trans (run_done rfl rfl rfl) ?_
    simp [complete, finish, shown, written, endedWith, acceptedWith, endCode]

/-- Settles O34: after SETTLE the program is at its end. -/
theorem powerDownRuns : Obligations.PowerDownRuns := by
  intro s a ws hb hi ha hc hw
  refine ⟨_, (powerRequestsAccepted s a .fm hb ha).2, ?_⟩
  rw [← runStepsWith_spec]
  refine Eq.trans (run_power hi ha hc hw) ?_
  refine Eq.trans (run_done rfl hi rfl) ?_
  simp [complete, finish, delay, emit, written, invMode, endedWith, acceptedWith, endCode]

/-- The argument byte of POWER_UP, its bits written as numbers (R86). -/
theorem powerUpArg1_eq {osc : Half} (h : osc ≤ 1) (m : Mode) : powerUpArg1 (osc.getLsbD 0) m =
    (if osc = 1 then 0x10 else 0x00) ||| (if m = .am then 0x01 else 0x00) := by
  obtain rfl | rfl : osc = 0 ∨ osc = 1 := by bv_omega
  all_goals cases m <;> rfl

/-- Settles O32: POWER_UP's frame and its wait, then the two properties, each with its wait, and COMMIT. -/
theorem powerUpRuns : Obligations.PowerUpRuns := by
  intro s a m b c d ws rs hb hi ha hc hosc hw hr hb7 hc7 hd7
  refine ⟨_, (powerRequestsAccepted s a m hb ha).1, ?_⟩
  rw [← runStepsWith_spec, ← powerUpArg1_eq hosc]
  refine Eq.trans (run_powerUp_frame hi ha hc hw hr hb7) ?_
  refine Eq.trans (run_wr_waitCts ⟨rfl, rfl, rfl⟩ ha rfl rfl hc7) ?_
  refine Eq.trans (run_wr_waitCts ⟨rfl, rfl, rfl⟩ ha rfl rfl hd7) ?_
  refine Eq.trans (runStepsWith_succ (stepWith_atMicro (m := .commit m) ⟨rfl, rfl, rfl⟩)) ?_
  refine Eq.trans (run_done rfl rfl rfl) ?_
  simp [runMicro, commit, complete, finish, delay, emit, shown, written, invMode, endedWith, acceptedWith, endCode]

/-- Settles O33: POWER_UP's frame and its wait, then the WR that fails; MODE is invalid since INVMODE. -/
theorem powerUpSecondWriteFails : Obligations.PowerUpSecondWriteFails := by
  intro s a m b ws rs hb hi ha hc hw hr hb7
  refine ⟨_, _, (powerRequestsAccepted s a m hb ha).1,
    (runStepsWith_spec 6 _).symm.trans ((run_powerUp_frame hi ha hc hw hr hb7).trans
      (runStepsWith_succ (stepWith_wr_failed ⟨rfl, rfl, rfl⟩ ha rfl))),
    rfl, rfl, ha, rfl, rfl, rfl, rfl, rfl, rfl, ?_⟩
  simp [finish, delay, emit, shown, written, invMode, acceptedWith]

end Sys2Proof.Machine

/-! PROOF. The decoder of StatusBytes and records (41_response_parser.md R140 to R156): ERR_SEEN over a step, the parser,
and the response read. -/

namespace Sys2Proof.Machine

/-! ## ERR_SEEN (R141, R142) -/

/-- What `observe` does to ERR_SEEN, by the two bits of the byte (R141). -/
theorem or_errCounts (e : Bool) (b : Byte) :
    (e || errCounts b) = if b.getLsbD 7 = true ∧ b.getLsbD 6 = true then true else e := by
  simp only [errCounts, statusCts, statusErr]
  cases b.getLsbD 7 <;> cases b.getLsbD 6 <;> simp

theorem wr_errSeen (f : List Byte) (s : State) : (wr f s).errSeen = s.errSeen := by
  rcases wr_cases f s with ⟨-, e⟩ | ⟨a, -, ⟨-, e⟩ | ⟨-, e⟩⟩ <;> rw [e] <;> rfl

theorem resolve_errSeen (s : State) : (resolve s).errSeen = s.errSeen := by
  rcases resolve_cases s with ⟨-, e⟩ | ⟨-, ⟨c, -, e⟩ | ⟨l, a, -, -, e⟩⟩ <;> rw [e] <;> rfl

section ErrSeen

/-! Once set, ERR_SEEN stays set in each operation of a busy CCODEC. -/

variable {s : State} (h : s.errSeen = true)
include h

theorem rd_keeps_errSeen (n : Nat) (k : Kind) : (rd n k s).errSeen = true := by
  rcases rd_cases n k s with ⟨-, e⟩ | ⟨a, -, ⟨c, -, -, e⟩ | ⟨r, -, -, e⟩⟩ <;> simp [e, h]

theorem pollStep_keeps_errSeen : (pollStep s).errSeen = true := by
  rcases pollStep_effects s with
    ⟨-, e⟩ | ⟨a, -, ⟨c, -, -, e⟩ | ⟨b, -, -, e⟩ | ⟨b, -, -, -, e⟩ | ⟨b, -, -, -, e⟩ | ⟨-, -, e⟩ | ⟨-, -, e⟩⟩ <;>
    simp [e, h]

theorem waitStep_keeps_errSeen : (waitStep s).errSeen = true := by
  unfold waitStep
  cases s.wstate with
  | idle | sleep => exact h
  | poll => exact pollStep_keeps_errSeen h

theorem startWait_keeps_errSeen (k : WKind) : (startWait k s).errSeen = true :=
  pollStep_keeps_errSeen (s := { s with wkind := k, attempts := 0, wstate := .poll }) h

theorem pre_keeps_errSeen : (pre s).errSeen = true := by
  unfold pre
  cases s.ctsSeen with
  | true => exact h
  | false => exact startWait_keeps_errSeen h .cts

theorem runMicro_keeps_errSeen (m : MicroOp) : (runMicro m s).errSeen = true := by
  cases m with
  | pre => exact pre_keeps_errSeen h
  | waitCts => exact startWait_keeps_errSeen h .cts
  | waitStc => exact startWait_keeps_errSeen h .stc
  | wr f => exact (wr_errSeen f s).trans h
  | rd n k => exact rd_keeps_errSeen h n k
  | resolve => exact (resolve_errSeen s).trans h
  | invMode | settle | commit | cfgWrite | noteReset => exact h

end ErrSeen

/-- Settles O9: no operation of a busy CCODEC clears ERR_SEEN. -/
theorem observeStatusByte : Obligations.ObserveStatusByte := by
  refine ⟨fun b s => ?_, fun s t ht hb h => ?_⟩
  · rw [← or_errCounts]
    rfl
  · rcases step_cases ht with ⟨idle, -⟩ | ⟨-, -, rfl⟩ | ⟨-, -, m, rest, -, rfl⟩ | ⟨-, -, -, rfl⟩
    · simp [hb] at idle
    · exact waitStep_keeps_errSeen h
    · exact runMicro_keeps_errSeen (s := { s with seq := rest }) h m
    · exact h

/-! ## `parse` (R151) -/

theorem parse_of_length_lt {k : Kind} {r : List Byte} {p : Params} (h : r.length < k.len p) :
    parse k r p = .error .shortRead := by
  simp [parse, h]

theorem parse_of_lt_length {k : Kind} {r : List Byte} {p : Params} (h : k.len p < r.length) :
    parse k r p = .error .longRead := by
  simp [parse, h, Nat.le_of_lt h]

/-- A byte sequence of the right length is parsed by its kind's layout. -/
theorem parse_of_length_eq {k : Kind} {r : List Byte} {p : Params} (h : r.length = k.len p) :
    parse k r p = recordOf k r p := by
  simp [parse, h]

/-- Every kind but NONE has a layout, which reads any bytes. -/
theorem exists_recordOf_eq_ok {k : Kind} (hk : k ≠ .none) (r : List Byte) (p : Params) :
    ∃ x, recordOf k r p = .ok x := by
  cases k with
  | none => exact absurd rfl hk
  | status | property | tuneStatusFm | tuneStatusAm | rsqStatusFm | rsqStatusAm | revision => exact ⟨_, rfl⟩

/-- The host reads a stored record of the right length as the bytes that were read. -/
theorem record_storeRecord {k : Kind} {r : List Byte} (h : r.length = k.len) (s : State) :
    (storeRecord k.len k r s).record = parse k r := by
  have bytes : (storeRecord k.len k r s).recordBytes = r :=
    recordBytes_of_padRecord (h ▸ k.len_le) (by rw [h]; rfl) rfl
  rw [State.record, bytes, storeRecord_resultKind]

/-- Settles O10: `parse` compares the length, and a layout reads any bytes. -/
theorem parserIsTotal : Obligations.ParserIsTotal := by
  intro k r hk
  refine ⟨parse_of_length_lt, parse_of_lt_length, fun h => ⟨?_, record_storeRecord h⟩⟩
  rw [parse_of_length_eq h]
  exact exists_recordOf_eq_ok hk r _

/-! ## The response read (R150, R215) -/

section Read

variable {s : State} {a : Addr} {n : Nat} {r : List Byte} (ha : s.addr = some a) (k : Kind)
include ha

theorem rd_of_busErr (hr : s.bus.nextRead = .busErr) : rd n k s = finish .busError (busRead a n s) := by
  simp [rd, ha, hr]

theorem rd_of_short (hr : s.bus.nextRead = .bytes r) (h : r.length < n) :
    rd n k s = finish .shortRead (busRead a n s) := by
  simp [rd, ha, hr, h]

theorem rd_of_long (hr : s.bus.nextRead = .bytes r) (h : n < r.length) :
    rd n k s = finish .longRead (busRead a n s) := by
  simp [rd, ha, hr, h, Nat.le_of_lt h]

end Read

/-- Settles O12: the step is RD, in each of its four outcomes. -/
theorem responseRead : Obligations.ResponseRead := by
  rintro s n k rest a ⟨hb, hw, hs⟩ ha
  have outcome {u : State} (h : rd n k { s with seq := rest } = u) : step s = .next u := h ▸ step_micro hb hw hs
  have addr : State.addr { s with seq := rest } = some a := ha
  refine ⟨fun hr => outcome (rd_of_busErr addr k hr), fun r hr h => outcome (rd_of_short addr k hr h),
    fun r hr h => outcome (rd_of_long addr k hr h), fun r hr h => ?_⟩
  subst h
  exact outcome (rd_ok addr hr k)

/-! ## The record layouts (R152 to R156) -/

/-- Settles O11: each record has the length of its kind, and its layout is evaluated. -/
theorem recordFields : Obligations.RecordFields := by
  intro b0 b1 b2 b3 b4 b5 b6 b7 b8 b9 b10 b11 b12 b13
  refine ⟨?_, ?_, ?_, ?_, ?_, ?_, ?_, ?_⟩ <;> exact parse_of_length_eq rfl

end Sys2Proof.Machine

/-! PROOF. The ready-wait FSM (42_readiness_gate.md R170 to R178): the step of a running wait in each of its outcomes, how
a wait starts, that every wait ends within its bounds, the chip that never shows CTS, and that every request ends. -/

namespace Sys2Proof.Machine

/-! ## One step of a running wait (R170 to R172, R175) -/

/-- The step of a wait in W_POLL (R197). -/
theorem step_poll {s : State} (hb : s.busy = true) (hw : s.wstate = .poll) : step s = .next (pollStep s) := by
  rw [step_wait hb (by simp [hw]), waitStep, hw]

/-- The step of a wait in W_SLEEP (R175, R197). -/
theorem step_sleep {s : State} (hb : s.busy = true) (hw : s.wstate = .sleep) :
    step s = .next { delay s.cfg.pollIntervalMs s with wstate := .poll } :=
  (stepWith_spec s).symm.trans (stepWith_sleep hb hw)

/-- The condition that ends a wait, by the two bits of the byte (R89, R175). -/
theorem waitDone_iff (k : WKind) (b : Byte) :
    waitDone k b = true ↔ b.getLsbD 7 = true ∧ (k = .stc → b.getLsbD 0 = true) := by
  cases k with
  | cts => simp [waitDone, statusCts]
  | stc => simp [waitDone_stc]

/-- A wait succeeds only where the byte shows CTS (R175). -/
theorem statusCts_of_waitDone {k : WKind} {b : Byte} (h : waitDone k b = true) : statusCts b = true :=
  ((waitDone_iff k b).1 h).1

section Polled

variable {s : State} {b : Byte}

theorem polled_done (hd : waitDone s.wkind b = true) :
    polled b s = { observe b { s with attempts := s.attempts + 1 } with wstate := .idle } := by
  rcases polled_cases b s with ⟨-, e⟩ | ⟨hn, -⟩ | ⟨hn, -⟩
  · exact e
  all_goals simp [hd] at hn

theorem polled_timeout (hd : ¬waitDone s.wkind b = true) (hl : waitLimit s.wkind s.cfg ≤ s.attempts + 1) :
    polled b s = finish .timeout (observe b { s with attempts := s.attempts + 1 }) := by
  rcases polled_cases b s with ⟨hn, -⟩ | ⟨-, -, e⟩ | ⟨-, hn, -⟩
  · exact absurd hn hd
  · exact e
  · exact absurd hl (BitVec.not_le.2 hn)

theorem polled_sleeps (hd : ¬waitDone s.wkind b = true) (hl : s.attempts + 1 < waitLimit s.wkind s.cfg) :
    polled b s = { observe b { s with attempts := s.attempts + 1 } with wstate := .sleep } := by
  rcases polled_cases b s with ⟨hn, -⟩ | ⟨-, hn, -⟩ | ⟨-, -, e⟩
  · exact absurd hn hd
  · exact absurd hn (BitVec.not_le.2 hl)
  · exact e

end Polled

/-- Settles O24: the step is a poll, by the transport's answer and, for one byte, by the wait's condition and limit. -/
theorem pollOutcomes : Obligations.PollOutcomes := by
  intro s a hb hw ha hk limit t good seen
  have outcome {u : State} (h : poll s = u) : step s = .next u := by rw [step_poll hb hw, pollStep_eq_poll hk, h]
  have counted {b : Byte} {u : State} (hr : s.bus.nextRead = .bytes [b]) (h : polled b (busRead a 1 s) = u) :
      step s = .next u := outcome ((poll_byte ha hr _).trans h)
  have notDone {b : Byte} (h : ¬good b) : ¬waitDone s.wkind b = true := mt (waitDone_iff s.wkind b).1 h
  have limitEq : limit = waitLimit s.wkind s.cfg := by cases h : s.wkind <;> simp [limit, h, waitLimit]
  refine ⟨fun hr => outcome ?_, fun hr => outcome ?_, fun b c r hr => outcome ?_,
    fun b hr hg => counted hr (polled_done ((waitDone_iff s.wkind b).2 hg)),
    fun b hr hg hl => counted hr (polled_timeout (notDone hg) (limitEq ▸ hl)),
    fun b hr hg hl => counted hr (polled_sleeps (notDone hg) (limitEq ▸ hl))⟩
  all_goals
    simp only [poll, ha, hr]
    rfl

/-- Settles O26: the wait's step is the WR of GET_INT_STATUS. -/
theorem stcWaitSendsGetIntStatus : Obligations.StcWaitSendsGetIntStatus := by
  intro s a hb hw hk hc ha t
  have sends : step s = .next (wr getIntStatusFrame s) := by
    rw [step_wait hb (by simp [hw]), waitStep_stc_seen hw hk hc]
  refine ⟨fun hr => ?_, fun hr => ?_⟩
  · rw [sends, wr_ok ha hr, ← hr]
    rfl
  · rw [sends, wr_busErr ha hr, ← hr]
    rfl

/-- Settles O25: WAIT_CTS, WAIT_STC and PRE without CTS seen run the first event of their wait. -/
theorem waitsStartAtOnce : Obligations.WaitsStartAtOnce := by
  intro s rest started
  have starts {m : MicroOp} {k : WKind} (h : AtMicro m rest s)
      (hm : runMicro m { s with seq := rest } = startWait k { s with seq := rest }) : step s = step (started k) := by
    obtain ⟨hb, hw, hs⟩ := h
    rw [step_micro hb hw hs, hm, step_poll (s := started k) hb rfl]
    rfl
  exact ⟨fun h => starts h rfl, fun h => starts h rfl, fun h hc => starts h (by simp [runMicro, pre, hc])⟩

/-! ## Runs -/

/-- States that step alike run alike, but for the run of no step. -/
theorem runSteps_succ_congr {s t : State} (h : step s = step t) (n : Nat) :
    runSteps (n + 1) s = runSteps (n + 1) t := by
  have first : Sys2Proof.core.step s = Sys2Proof.core.step t := h
  simp only [runSteps, Host.Core.run]
  rw [first]

/-! ## What the readings of the trace count -/

@[simp] theorem isRead_read (a : Addr) (n : Nat) (r : ReadAnswer) : (Event.read a n r).isRead = true := rfl
@[simp] theorem isRead_write (a : Addr) (f : List Byte) (r : WriteAnswer) : (Event.write a f r).isRead = false := rfl
@[simp] theorem isRead_delay (ms : Nat) : (Event.delay ms).isRead = false := rfl
@[simp] theorem isDelay_read (a : Addr) (n : Nat) (r : ReadAnswer) : (Event.read a n r).isDelay = false := rfl
@[simp] theorem isDelay_write (a : Addr) (f : List Byte) (r : WriteAnswer) : (Event.write a f r).isDelay = false := rfl
@[simp] theorem isDelay_delay (ms : Nat) : (Event.delay ms).isDelay = true := rfl
@[simp] theorem isWrite_read (a : Addr) (n : Nat) (r : ReadAnswer) : (Event.read a n r).isWrite = false := rfl
@[simp] theorem isWrite_write (a : Addr) (f : List Byte) (r : WriteAnswer) : (Event.write a f r).isWrite = true := rfl
@[simp] theorem isWrite_delay (ms : Nat) : (Event.delay ms).isWrite = false := rfl

/-! ## Bounds on a wait (R176, R177) -/

/-- `t` is where the wait of `s` is over: it returned to the program, or it ended the request. -/
def WaitOver (s t : State) : Prop :=
  t.wstate = .idle ∧
    ((t.busy = true ∧ t.seq = s.seq ∧ t.ctsSeen = true) ∨ (t.busy = false ∧ t.resultCode ≠ .none))

/-- A run from `s`, in a wait, to `t`, where the wait is over, with the events `es`. -/
structure WaitRun (s t : State) (es : List Event) : Prop where
  run : ∃ n, runSteps n s = .next t
  ends : WaitOver s t
  trace : t.trace = s.trace ++ es

/-- The step that ends a wait. -/
theorem WaitRun.last {s t : State} {e : Event} (h : step s = .next t) (ends : WaitOver s t)
    (trace : t.trace = s.trace ++ [e]) : WaitRun s t [e] :=
  ⟨⟨1, runSteps_succ h⟩, ends, trace⟩

/-- A step after which the wait goes on. -/
theorem WaitRun.cons {s t u : State} {e : Event} {es : List Event} (h : step s = .next u) (seq : u.seq = s.seq)
    (trace : u.trace = s.trace ++ [e]) (next : WaitRun u t es) : WaitRun s t (e :: es) where
  run := next.run.elim fun n hn => ⟨n + 1, (runSteps_succ h).trans hn⟩
  ends := by simpa only [WaitOver, seq] using next.ends
  trace := by rw [next.trace, trace, List.append_assoc, List.singleton_append]

/-- The bounds on the events of a wait of kind `k` in W_POLL with `m` attempts left; `seen` is CTS_SEEN, where an STC
wait goes on with a write. -/
structure WaitBounds (k : WKind) (seen : Bool) (m : Nat) (es : List Event) : Prop where
  reads : es.countP Event.isRead ≤ m
  delays : es.countP Event.isDelay + 1 ≤ m
  writes : es.countP Event.isWrite + 1 ≤ m + seen.toNat
  cts : k = .cts → 1 ≤ es.countP Event.isRead ∧ es.countP Event.isWrite = 0

section WaitBounds

variable {k : WKind} {seen : Bool} {m : Nat} {es : List Event} {a : Addr}

/-- One read ends the wait. -/
theorem WaitBounds.read {n : Nat} {r : ReadAnswer} (hm : 0 < m) : WaitBounds k seen m [.read a n r] := by
  constructor <;> simp <;> omega

/-- A read and the sleep after it use one attempt up. -/
theorem WaitBounds.read_delay {n : Nat} {r : ReadAnswer} {ms : Nat} {seen' : Bool} (h : WaitBounds k seen (m - 1) es) :
    WaitBounds k seen' m (.read a n r :: .delay ms :: es) := by
  obtain ⟨reads, delays, writes, cts⟩ := h
  have := seen.toNat_le
  constructor
  case cts => exact fun hk => ⟨by simp [List.countP_cons], by simpa [List.countP_cons] using (cts hk).2⟩
  all_goals
    simp [List.countP_cons]
    omega

/-- The write of GET_INT_STATUS, where it fails. -/
theorem WaitBounds.write {f : List Byte} {r : WriteAnswer} (hm : 0 < m) : WaitBounds .stc true m [.write a f r] := by
  constructor <;> simp <;> omega

/-- The write of GET_INT_STATUS, after which CTS_SEEN = 0. -/
theorem WaitBounds.write_cons {f : List Byte} {r : WriteAnswer} (h : WaitBounds .stc false m es) :
    WaitBounds .stc true m (.write a f r :: es) := by
  obtain ⟨reads, delays, writes, -⟩ := h
  constructor <;> simp [List.countP_cons] <;> assumption

end WaitBounds

/-- A wait in W_POLL with `m` attempts left ends within its bounds, whatever the transport answers: a poll that does not
end it uses an attempt up, and the write of an STC wait clears CTS_SEEN. -/
theorem wait_ends (m : Nat) (s : State) (hb : s.busy = true) (hw : s.wstate = .poll) (ha : s.addr.isSome = true)
    (hm : 0 < m) (hl : (waitLimit s.wkind s.cfg).toNat = s.attempts.toNat + m) :
    ∃ t es, WaitRun s t es ∧ WaitBounds s.wkind s.ctsSeen m es := by
  induction h : 2 * m + s.ctsSeen.toNat using Nat.strongRecOn generalizing m s with | ind j ih =>
  have hs := step_poll hb hw
  rcases pollStep_effects s with ⟨hn, -⟩ | ⟨a, -, ⟨c, hc, -, e⟩ | ⟨b, -, hd, e⟩ | ⟨b, -, -, -, e⟩ |
    ⟨b, -, -, hlt, e⟩ | ⟨hk, hc, e⟩ | ⟨hk, hc, e⟩⟩
  case inl => simp [hn] at ha
  all_goals rw [e] at hs
  · have failed : c ≠ .none := by rcases hc with rfl | rfl | rfl <;> decide
    exact ⟨_, _, .last hs ⟨rfl, .inr ⟨rfl, failed⟩⟩ rfl, .read hm⟩
  · exact ⟨_, _, .last hs ⟨rfl, .inl ⟨hb, rfl, statusCts_of_waitDone hd⟩⟩ rfl, .read hm⟩
  · exact ⟨_, _, .last hs ⟨rfl, .inr ⟨rfl, by simp⟩⟩ rfl, .read hm⟩
  · have left : (s.attempts + 1).toNat = s.attempts.toNat + 1 ∧ 1 < m := by bv_omega
    have := (statusCts b).toNat_le
    obtain ⟨t, es, run, bounds⟩ := ih (2 * (m - 1) + (statusCts b).toNat) (by omega) (m - 1)
      { delay s.cfg.pollIntervalMs (observe b { busRead a 1 s with attempts := s.attempts + 1 }) with wstate := .poll }
      hb rfl ha (by omega) (hl.trans (by simp only [delay_attempts, observe_attempts]; omega)) rfl
    exact ⟨t, _, .cons hs rfl rfl (.cons (step_sleep hb rfl) rfl rfl run), bounds.read_delay⟩
  · obtain ⟨t, es, run, bounds⟩ := ih (2 * m) (by simp [← h, hc]) m
      { busWrite a getIntStatusFrame s with ctsSeen := false } hb hw ha hm hl rfl
    rw [busWrite_wkind, hk] at bounds
    rw [hk, hc]
    exact ⟨t, _, .cons hs rfl rfl run, bounds.write_cons⟩
  · rw [hk, hc]
    exact ⟨_, _, .last hs ⟨rfl, .inr ⟨rfl, by simp⟩⟩ rfl, .write hm⟩

/-- A state that steps as the first step of a wait does runs as it does to the wait's end. -/
theorem WaitRun.run_of_step_eq {r s t : State} {es : List Event} (h : step r = step s) (hw : s.wstate = .poll)
    (wait : WaitRun s t es) : ∃ n, runSteps n r = .next t := by
  obtain ⟨_ | n, hn⟩ := wait.run
  · obtain rfl : s = t := by cases hn; rfl
    exact absurd (hw.symm.trans wait.ends.1) (by simp)
  · exact ⟨n + 1, (runSteps_succ_congr h n).trans hn⟩

/-- A micro-operation whose step is that of a wait of kind `k`: it ends within the bounds of the whole limit. -/
theorem started_wait_ends {s : State} {m : MicroOp} {rest : List MicroOp} {k : WKind} (head : AtMicro m rest s)
    (ha : s.addr.isSome = true) (hl : 1 ≤ waitLimit k s.cfg)
    (h : step s = step { s with seq := rest, wkind := k, attempts := 0, wstate := .poll }) :
    ∃ n t es, runSteps n s = .next t ∧ t.wstate = .idle ∧
      ((t.busy = true ∧ t.seq = rest ∧ t.ctsSeen = true) ∨ (t.busy = false ∧ t.resultCode ≠ .none)) ∧
      t.trace = s.trace ++ es ∧ WaitBounds k s.ctsSeen (waitLimit k s.cfg).toNat es := by
  obtain ⟨t, es, run, bounds⟩ := wait_ends (waitLimit k s.cfg).toNat
    { s with seq := rest, wkind := k, attempts := 0, wstate := .poll } head.1 rfl ha hl (by simp)
  obtain ⟨n, hn⟩ := run.run_of_step_eq h rfl
  exact ⟨n, t, es, hn, run.ends.1, run.ends.2, run.trace, bounds⟩

/-- Settles O27: WAIT_CTS is a wait with all its attempts left. -/
theorem waitCtsIsBounded : Obligations.WaitCtsIsBounded := by
  intro s rest head ha hl
  obtain ⟨n, t, es, run, idle, outcome, trace, reads, delays, -, cts⟩ :=
    started_wait_ends (k := .cts) head ha hl ((waitsStartAtOnce s rest).1 head)
  exact ⟨n, t, es, run, idle, outcome, trace, (cts rfl).1, reads, delays, (cts rfl).2⟩

/-- Settles O28: WAIT_STC is a wait with all its attempts left, and CTS has not been seen. -/
theorem waitStcIsBounded : Obligations.WaitStcIsBounded := by
  intro s rest head ha hl hc
  obtain ⟨n, t, es, run, idle, outcome, trace, reads, delays, writes, -⟩ :=
    started_wait_ends (k := .stc) head ha hl ((waitsStartAtOnce s rest).2.1 head)
  exact ⟨n, t, es, run, idle, outcome, trace, reads, by rw [hc] at writes; exact writes, delays⟩

/-! ## AWAIT_READY (R173, R178) -/

/-- AWAIT_READY is accepted with a CTS wait (R173). -/
theorem exec_awaitReady {s : State} {a : Addr} (hb : s.busy = false) (ha : s.addr = some a) :
    exec .awaitReady s = .next (acceptedWith 0xC000000000000000 [.waitCts] s) :=
  congrArg _ (present_needAddr hb ha _ _)

/-- Settles O30: the program's two steps. -/
theorem awaitReadyRuns : Obligations.AwaitReadyRuns := by
  intro s a b rs hb hi ha hr h7
  refine ⟨_, exec_awaitReady hb ha, ?_⟩
  rw [← runStepsWith_spec]
  refine Eq.trans (runStepsWith_succ (stepWith_waitCts_done ⟨rfl, hi, rfl⟩ ha hr h7)) ?_
  refine Eq.trans (run_done rfl rfl rfl) ?_
  simp [complete, finish, shown, endedWith, acceptedWith, endCode]

/-- What a poll that does not show CTS leaves: the event, the attempt counted, the byte observed, `rs` the read answers
to come. -/
def unshown (a : Addr) (b : Byte) (rs : List ReadAnswer) (s : State) : State :=
  { s with
    attempts := s.attempts + 1, lastStatus := b, ctsSeen := false, trace := s.trace ++ [.read a 1 (.bytes [b])],
    bus := { s.bus with reads := rs } }

/-- What a CTS wait leaves whose `n` polls up to the limit all answer `b`, which does not show CTS. -/
def timedOut (a : Addr) (b : Byte) (rs : List ReadAnswer) (n : Nat) (s : State) : State :=
  finish .timeout { s with
    attempts := s.cfg.maxAttempts, lastStatus := b, ctsSeen := false,
    trace := s.trace ++ pollTrace a b s.cfg.pollIntervalMs.toNat n, bus := { s.bus with reads := rs } }

/-- The byte of a poll that does not show CTS, counted and observed. -/
theorem observe_busRead_eq_unshown {s : State} {b : Byte} {rs : List ReadAnswer} (hr : s.bus.reads = .bytes [b] :: rs)
    (h7 : b.getLsbD 7 = false) (a : Addr) :
    observe b { busRead a 1 s with attempts := s.attempts + 1 } = unshown a b rs s := by
  have h6 : errCounts b = false := by simp only [errCounts, statusCts, h7, Bool.false_and]
  simp only [observe, busRead, emit, unshown, h6, statusCts, h7, Bool.or_false, Transport.nextRead_of_cons hr,
    Transport.afterRead_of_cons hr]

section DeadPoll

variable {s : State} {a : Addr} {b : Byte} {rs : List ReadAnswer} (hb : s.busy = true) (hw : s.wstate = .poll)
  (hk : s.wkind = .cts) (ha : s.addr = some a) (hr : s.bus.reads = .bytes [b] :: rs) (h7 : b.getLsbD 7 = false)
include hb hw hk ha hr h7

/-- The last poll of a CTS wait, where it does not show CTS. -/
theorem step_unshown_last (hl : s.attempts + 1 = s.cfg.maxAttempts) :
    step s = .next (finish .timeout (unshown a b rs s)) := by
  have notDone : ¬waitDone (busRead a 1 s).wkind b = true := mt statusCts_of_waitDone (Bool.eq_false_iff.1 h7)
  rw [step_poll hb hw, pollStep_eq_poll (.inl hk), poll_byte ha (Transport.nextRead_of_cons hr),
    polled_timeout notDone (by simpa [hk, waitLimit] using BitVec.le_of_eq hl.symm), busRead_attempts,
    observe_busRead_eq_unshown hr h7]

/-- A poll of a CTS wait with attempts left, where it does not show CTS. -/
theorem step_unshown_sleeps (hl : s.attempts + 1 < s.cfg.maxAttempts) :
    step s = .next { unshown a b rs s with wstate := .sleep } := by
  have notDone : ¬waitDone (busRead a 1 s).wkind b = true := mt statusCts_of_waitDone (Bool.eq_false_iff.1 h7)
  rw [step_poll hb hw, pollStep_eq_poll (.inl hk), poll_byte ha (Transport.nextRead_of_cons hr),
    polled_sleeps notDone (by simpa [hk, waitLimit] using hl), busRead_attempts, observe_busRead_eq_unshown hr h7]

end DeadPoll

/-- The polls of a CTS wait that has `n + 1` attempts left, and the sleeps between them. -/
theorem run_unshown {a : Addr} {b : Byte} {rs : List ReadAnswer} (h7 : b.getLsbD 7 = false) (n : Nat) {s : State}
    (hb : s.busy = true) (hw : s.wstate = .poll) (hk : s.wkind = .cts) (ha : s.addr = some a)
    (hr : s.bus.reads = List.replicate (n + 1) (.bytes [b]) ++ rs)
    (hl : s.cfg.maxAttempts.toNat = s.attempts.toNat + (n + 1)) :
    runSteps (2 * n + 1) s = .next (timedOut a b rs (n + 1) s) := by
  induction n generalizing s with
  | zero =>
    have last : s.attempts + 1 = s.cfg.maxAttempts := by bv_omega
    refine (runSteps_succ (step_unshown_last hb hw hk ha hr h7 last)).trans ?_
    rw [timedOut, unshown, ← last]
    rfl
  | succ n ih =>
    have left : s.attempts + 1 < s.cfg.maxAttempts ∧ (s.attempts + 1).toNat = s.attempts.toNat + 1 := by bv_omega
    refine (runSteps_succ (step_unshown_sleeps hb hw hk ha hr h7 left.1)).trans ?_
    refine Eq.trans (runSteps_succ (step_sleep hb rfl)) ?_
    refine Eq.trans (ih hb rfl hk ha rfl (hl.trans ?_)) ?_
    · exact (by omega : _ = s.attempts.toNat + 1 + (n + 1)).trans (congrArg (· + (n + 1)) left.2.symm)
    · simp [timedOut, unshown, delay, emit, finish, pollTrace]

/-- Settles O29: the CTS wait of AWAIT_READY has all its attempts left. -/
theorem deadChipTimesOut : Obligations.DeadChipTimesOut := by
  intro s a b rs hb hi ha hl h7 hr
  refine ⟨_, exec_awaitReady hb ha, ?_⟩
  obtain ⟨n, hn⟩ := Nat.exists_eq_add_of_le' (show 1 ≤ s.cfg.maxAttempts.toNat from hl)
  have starts := (waitsStartAtOnce (acceptedWith 0xC000000000000000 [.waitCts] s) []).1 ⟨rfl, hi, rfl⟩
  have steps : 2 * s.cfg.maxAttempts.toNat - 1 = 2 * n + 1 := by omega
  rw [hn] at hr
  rw [steps, hn]
  exact (runSteps_succ_congr starts (2 * n)).trans (run_unshown h7 n rfl rfl rfl ha hr (hn.trans (Nat.zero_add _).symm))

/-! ## Every request ends (R176, R177, R250) -/

/-- What goes down with each step of a state that meets `P` bounds the steps to one that does not. -/
theorem exists_run_of_decreasing {P : State → Prop} (left : State → Nat)
    (decr : ∀ s, P s → ∃ t, step s = .next t ∧ left t < left s) (s : State) :
    ∃ n t, n ≤ left s ∧ runSteps n s = .next t ∧ ¬P t := by
  induction h : left s using Nat.strongRecOn generalizing s with | ind k ih =>
  by_cases hs : P s
  · obtain ⟨u, hstep, hlt⟩ := decr s hs
    obtain ⟨n, t, hn, hrun, ht⟩ := ih (left u) (h ▸ hlt) u rfl
    exact ⟨n + 1, t, by omega, (runSteps_succ hstep).trans hrun, ht⟩
  · exact ⟨0, s, Nat.zero_le _, rfl, hs⟩

/-- The polls a wait has left at the most, whatever its limit: ATTEMPTS is below the limit after each but the last, and
so is not 0xFFFF; where it is 0xFFFF at first, the next poll brings it to 0. -/
def pollsLeft (s : State) : Nat := 65536 - (s.attempts + 1).toNat

/-- A bound on the steps of the running wait: a sleep, a write and a poll for each attempt. -/
def waitStepsLeft (s : State) : Nat :=
  match s.wstate with
  | .idle => 0
  | .poll => 3 * (pollsLeft s - 1) + (1 + s.ctsSeen.toNat)
  | .sleep => 3 * pollsLeft s

/-- A bound on the steps of the request: its running wait, as many for each micro-operation, and the final `finish`. -/
def stepsLeft (s : State) : Nat :=
  if s.busy then waitStepsLeft s + 196608 * s.seq.length + 1 else 0

theorem pollsLeft_pos (s : State) : 0 < pollsLeft s := Nat.sub_pos_of_lt (s.attempts + 1).isLt

theorem waitStepsLeft_le (s : State) : waitStepsLeft s ≤ 196608 := by
  have := s.ctsSeen.toNat_le
  unfold waitStepsLeft pollsLeft
  split <;> omega

theorem stepsLeft_idle {s : State} (hb : s.busy = true) (hw : s.wstate = .idle) :
    stepsLeft s = 196608 * s.seq.length + 1 := by
  simp [stepsLeft, waitStepsLeft, hb, hw]

theorem stepsLeft_poll {s : State} (hb : s.busy = true) (hw : s.wstate = .poll) :
    stepsLeft s = 3 * (pollsLeft s - 1) + (1 + s.ctsSeen.toNat) + 196608 * s.seq.length + 1 := by
  simp [stepsLeft, waitStepsLeft, hb, hw]

theorem stepsLeft_sleep {s : State} (hb : s.busy = true) (hw : s.wstate = .sleep) :
    stepsLeft s = 3 * pollsLeft s + 196608 * s.seq.length + 1 := by
  simp [stepsLeft, waitStepsLeft, hb, hw]

@[simp] theorem stepsLeft_finish (c : ResultCode) (s : State) : stepsLeft (finish c s) = 0 := rfl

theorem stepsLeft_le (s : State) : stepsLeft s ≤ 196608 * (s.seq.length + 1) + 1 := by
  have := waitStepsLeft_le s
  unfold stepsLeft
  split <;> omega

/-- Each event of a wait takes one of the steps left: a poll that does not end it uses an attempt up, and the write of
an STC wait clears CTS_SEEN. -/
theorem stepsLeft_pollStep_lt {s : State} (hb : s.busy = true) (hw : s.wstate = .poll) :
    stepsLeft (pollStep s) < stepsLeft s := by
  rcases pollStep_effects s with ⟨-, e⟩ | ⟨a, -, ⟨c, -, -, e⟩ | ⟨b, -, -, e⟩ | ⟨b, -, -, -, e⟩ |
    ⟨b, -, -, hl, e⟩ | ⟨-, hc, e⟩ | ⟨-, -, e⟩⟩ <;> rw [e, stepsLeft_poll hb hw]
  · simp
  · simp
  · refine Eq.trans_lt (stepsLeft_idle hb rfl) ?_
    simp only [observe_seq, busRead_seq]
    omega
  · simp
  · refine Eq.trans_lt (stepsLeft_sleep hb rfl) ?_
    have next : (s.attempts + 1 + 1).toNat = (s.attempts + 1).toNat + 1 := by bv_omega
    simp only [pollsLeft, observe_seq, busRead_seq, observe_attempts, next]
    omega
  · refine Eq.trans_lt (stepsLeft_poll hb hw) ?_
    simp [pollsLeft, hc]
  · simp

/-- A wait that starts makes its first event with all its attempts left. -/
theorem stepsLeft_startWait_le {s : State} (hb : s.busy = true) (k : WKind) :
    stepsLeft (startWait k s) ≤ 196608 * (s.seq.length + 1) := by
  have first := stepsLeft_pollStep_lt (s := { s with wkind := k, attempts := 0, wstate := .poll }) hb rfl
  exact Nat.le_of_lt_succ (Nat.lt_of_lt_of_le first (stepsLeft_le _))

/-- A micro-operation, taken off SEQ, uses its steps up. -/
theorem stepsLeft_runMicro_le {s : State} (hb : s.busy = true) (hw : s.wstate = .idle) (m : MicroOp) :
    stepsLeft (runMicro m s) ≤ 196608 * (s.seq.length + 1) := by
  have popped {t : State} (busy : t.busy = true) (idle : t.wstate = .idle) (seq : t.seq = s.seq) :
      stepsLeft t ≤ 196608 * (s.seq.length + 1) := by
    rw [stepsLeft_idle busy idle, seq]
    omega
  cases m with
  | pre =>
    rw [runMicro, pre]
    split
    · exact popped hb hw rfl
    · exact stepsLeft_startWait_le hb .cts
  | waitCts => exact stepsLeft_startWait_le hb .cts
  | waitStc => exact stepsLeft_startWait_le hb .stc
  | wr f =>
    rcases wr_cases f s with ⟨-, e⟩ | ⟨a, -, ⟨-, e⟩ | ⟨-, e⟩⟩ <;> rw [runMicro, e]
    · simp
    · exact popped hb hw rfl
    · simp
  | rd n k =>
    rcases rd_cases n k s with ⟨-, e⟩ | ⟨a, -, ⟨c, -, -, e⟩ | ⟨r, -, -, e⟩⟩ <;> rw [runMicro, e]
    · simp
    · simp
    · exact popped hb hw rfl
  | resolve =>
    rcases resolve_cases s with ⟨-, e⟩ | ⟨-, ⟨c, -, e⟩ | ⟨l, a, -, -, e⟩⟩ <;> rw [runMicro, e]
    · exact popped hb hw rfl
    · simp
    · exact popped hb hw rfl
  | invMode | settle | commit | cfgWrite | noteReset => exact popped hb hw rfl

/-- Every step of a busy CCODEC takes one of the steps left. -/
theorem step_stepsLeft_lt {s : State} (hb : s.busy = true) : ∃ t, step s = .next t ∧ stepsLeft t < stepsLeft s := by
  cases hw : s.wstate with
  | poll => exact ⟨_, step_poll hb hw, stepsLeft_pollStep_lt hb hw⟩
  | sleep =>
    refine ⟨_, step_sleep hb hw, Eq.trans_lt (stepsLeft_poll hb rfl) ?_⟩
    have pos := pollsLeft_pos s
    have := s.ctsSeen.toNat_le
    rw [stepsLeft_sleep hb hw]
    simp only [pollsLeft, delay_attempts, delay_ctsSeen, delay_seq] at pos ⊢
    omega
  | idle =>
    rw [stepsLeft_idle hb hw]
    cases hs : s.seq with
    | nil => exact ⟨_, step_done hb hw hs, by simp [complete]⟩
    | cons m rest =>
      refine ⟨_, step_micro hb hw hs, ?_⟩
      exact Nat.lt_succ_of_le (stepsLeft_runMicro_le (s := { s with seq := rest }) hb hw m)

/-- Settles O58: each step of the request takes one of the steps left. -/
theorem everyRequestEnds : Obligations.EveryRequestEnds := by
  intro s hb
  obtain ⟨n, t, hn, run, ended⟩ := exists_run_of_decreasing stepsLeft (fun _ => step_stepsLeft_lt) s
  exact ⟨n, t, Nat.le_trans hn (stepsLeft_le s), run, by simpa using ended⟩

end Sys2Proof.Machine

/-! PROOF. The control requests and the sequencer (43_control_requests.md R190 to R198): the micro-operations that do not
use the bus, the runs of RESOLVE_ADDRESS and NOTE_CHIP_RESET, and that only the idle CCODEC has no next step. -/

namespace Sys2Proof.Machine

/-! ## Micro-operations that do not use the bus (R174, R175, R196) -/

/-- The step of the head micro-operation. -/
theorem step_atMicro {s : State} {m : MicroOp} {rest : List MicroOp} (h : AtMicro m rest s) :
    step s = .next (runMicro m { s with seq := rest }) :=
  (stepWith_spec s).symm.trans (stepWith_atMicro h)

/-- Settles O23: each is the step of its micro-operation, or of a wait in W_SLEEP. -/
theorem eventFreeStepsAndDelays : Obligations.EventFreeStepsAndDelays := by
  intro s rest
  exact ⟨step_atMicro, fun _ => step_atMicro, fun _ => step_atMicro,
    fun h hc => (stepWith_spec s).symm.trans (stepWith_pre_seen h hc), step_sleep⟩

/-! ## The run of a control request (R191, R194, R197)

Both programs are one micro-operation, so a request is two steps, or one where the micro-operation fails. -/

section Single

variable {w : ReqWord} {m : MicroOp} {s t : State} (hi : s.wstate = .idle)
  (effect : runMicro m (acceptedWith w [] s) = t)
include hi effect

/-- The first step of a program of one micro-operation. -/
theorem step_single : step (acceptedWith w [m] s) = .next t :=
  effect ▸ step_atMicro (s := acceptedWith w [m] s) ⟨rfl, hi, rfl⟩

/-- A program whose one micro-operation ends the request. -/
theorem run_single_ended : runSteps 1 (acceptedWith w [m] s) = .next t :=
  runSteps_succ (step_single hi effect)

/-- A program whose one micro-operation goes on: the micro-operation, then the final `finish`. -/
theorem run_single_done (busy : t.busy = true) (idle : t.wstate = .idle) (seq : t.seq = []) :
    runSteps 2 (acceptedWith w [m] s) = .next (complete t) :=
  (runSteps_succ (step_single hi effect)).trans (runSteps_succ (step_done busy idle seq))

end Single

/-! ## NOTE_CHIP_RESET (R194) -/

/-- NOTE_CHIP_RESET is accepted in every idle state: it needs neither address nor mode. -/
theorem exec_noteChipReset {s : State} (hb : s.busy = false) :
    exec .noteChipReset s = .next (acceptedWith 0xF000000000000000 [.noteReset] s) :=
  congrArg _ (present_ok hb _ _)

/-- Settles O40: the micro-operation and the final `finish`. -/
theorem noteChipResetRuns : Obligations.NoteChipResetRuns := fun _ hb hi =>
  ⟨_, exec_noteChipReset hb, run_single_done (m := .noteReset) hi rfl rfl hi rfl⟩

/-! ## RESOLVE_ADDRESS (R57, R191) -/

/-- RESOLVE_ADDRESS is accepted in every idle state: it needs neither address nor mode. -/
theorem exec_resolveAddress {s : State} (hb : s.busy = false) :
    exec .resolveAddress s = .next (acceptedWith 0xD000000000000000 [.resolve] s) :=
  congrArg _ (present_ok hb _ _)

/-- What a scan that the bus answers `r` leaves: the event, `rest` the scan answers to come. -/
def scanned (r : ScanAnswer) (rest : List ScanAnswer) (s : State) : State :=
  { s with trace := s.trace ++ [.scan (canonScan r)], bus := { s.bus with scans := rest } }

/-- A scan that shows no legal address resolves to none. -/
theorem pickAddr_eq_none {l : List Addr} (h1 : 0x11 ∉ l) (h2 : 0x63 ∉ l) : pickAddr l = none := by
  simpa [pickAddr, Config.legalAddrs, Config.addrFirst, Config.addrSecond] using And.intro h1 h2

section Resolve

variable {s : State} {l : List Addr} {rest : List ScanAnswer}

theorem Transport.nextScan_of_cons {t : Transport} {r : ScanAnswer} (h : t.scans = r :: rest) : t.nextScan = r := by
  simp [Transport.nextScan, h]

theorem Transport.afterScan_of_cons {t : Transport} {r : ScanAnswer} (h : t.scans = r :: rest) :
    t.afterScan = { t with scans := rest } := by simp [Transport.afterScan, h]

theorem busScan_eq_scanned {r : ScanAnswer} (h : s.bus.scans = r :: rest) : busScan s = scanned r rest s := by
  rw [busScan, Transport.nextScan_of_cons h, Transport.afterScan_of_cons h, emit, scanned]

/-- Where ADDR is valid, RESOLVE_ADDRESS does nothing. -/
theorem resolve_known {a : Addr} (ha : s.addr = some a) : resolve s = s := by
  simp [resolve, ha]

/-- A scan that resolves to `a`. -/
theorem resolve_scanned (hn : s.addr = none) (hs : s.bus.scans = .found l :: rest) {a : Addr}
    (hp : pickAddr l = some a) : resolve s = { scanned (.found l) rest s with addr := some a } := by
  rw [resolve_found hn (Transport.nextScan_of_cons hs) hp, Transport.afterScan_of_cons hs, scanned]

/-- A scan that resolves to no address. -/
theorem resolve_unfound (hn : s.addr = none) (hs : s.bus.scans = .found l :: rest) (hp : pickAddr l = none) :
    resolve s = finish .deviceNotFound (scanned (.found l) rest s) := by
  simp [resolve, hn, Transport.nextScan_of_cons hs, hp, busScan_eq_scanned hs]

/-- A scan that fails. -/
theorem resolve_failed (hn : s.addr = none) (hs : s.bus.scans = .busErr :: rest) :
    resolve s = finish .busError (scanned .busErr rest s) := by
  simp [resolve, hn, Transport.nextScan_of_cons hs, busScan_eq_scanned hs]

end Resolve

/-- Settles O38: the micro-operation where ADDR is valid, and for each answer of its scan where it is not. -/
theorem resolveAddressRuns : Obligations.ResolveAddressRuns := by
  intro s hb hi
  have accepted := exec_resolveAddress hb
  refine ⟨fun a ha => ⟨_, accepted, ?_⟩, fun hn => ⟨fun l rest hs => ?_, fun rest hs => ⟨_, accepted, ?_⟩⟩⟩
  · exact run_single_done (m := .resolve) hi (resolve_known ha) rfl hi rfl
  · have resolves {a : Addr} (hp : pickAddr l = some a) :=
      run_single_done (m := .resolve) (w := 0xD000000000000000) hi
        (resolve_scanned (s := acceptedWith _ [] s) hn hs hp) rfl hi rfl
    refine ⟨fun h1 => ⟨_, accepted, ?_⟩, fun h1 h2 => ⟨_, accepted, ?_⟩, fun h1 h2 => ⟨_, accepted, ?_⟩⟩
    · exact resolves (pickAddr_first (before := []) rfl h1 (by simp))
    · exact resolves (pickAddr_first (before := [0x11]) rfl h2 (by simpa using h1))
    · exact run_single_ended (m := .resolve) hi (resolve_unfound hn hs (pickAddr_eq_none h1 h2))
  · exact run_single_ended (m := .resolve) hi (resolve_failed hn hs)

/-! ## Which states have a next step (R197) -/

/-- Every instruction's meaning is a next state: a request's its acceptance or its being held, a frame's its WR. -/
theorem exists_exec_eq_next (i : Instr) (s : State) : ∃ t, exec i s = .next t := by
  cases hi : i.isRequest with
  | true =>
    obtain ⟨c, -, he⟩ := exec_request hi s
    exact ⟨_, he⟩
  | false => exact ⟨_, exec_wire hi s⟩

/-- An idle CCODEC accepts the word on its port, legal or not (R31, R73). -/
theorem exists_step_of_presented {s : State} {w : ReqWord} {rest : List ReqWord} (hb : s.busy = false)
    (hp : s.port = w :: rest) : ∃ t, step s = .next t := by
  cases hd : decodeRequest w with
  | ok i => exact step_request hb hp hd ▸ exists_exec_eq_next i _
  | error e => exact ⟨_, step_illegal hb hp hd⟩

/-- Settles O43: a busy CCODEC has the step of its request, an idle one the acceptance of the word on its port. -/
theorem onlyIdleStops : Obligations.OnlyIdleStops := by
  refine ⟨exists_exec_eq_next, fun s => step_stuck, fun s h => ?_⟩
  cases hb : s.busy with
  | true =>
    obtain ⟨t, ht, -⟩ := step_stepsLeft_lt hb
    exact ⟨t, ht⟩
  | false =>
    obtain ⟨w, rest, hp⟩ := List.exists_cons_of_ne_nil fun hp => h ⟨hb, hp⟩
    exact exists_step_of_presented hb hp

end Sys2Proof.Machine

/-! PROOF. The errors and the completion of a request (60_exceptions.md R210 to R216): the acceptance checks in their order,
the codes that an operation of a running request can end it with, and the final `finish`. -/

namespace Sys2Proof.Machine

/-! ## The acceptance checks (R212) -/

/-- Where ADDR is not valid, check 2 fails, whatever comes after it. -/
theorem needAddr_none {s : State} (ha : s.addr = none) (c : Except ResultCode (List MicroOp)) :
    needAddr s c = .error .noAddress := by
  simp [needAddr, ha]

/-- Where MODE is not valid, check 3 fails, whatever comes after it. -/
theorem needMode_none {s : State} (hm : s.mode = none) (c : Mode → Except ResultCode (List MicroOp)) :
    needMode s c = .error .noMode := by
  simp [needMode, hm]

/-- The requests that need an address and no mode. -/
def NeedsAddrOnly (i : Instr) : Prop :=
  i ∈ ([.powerUp .fm, .powerUp .am, .powerDown, .getStatus, .getRevision, .getRevisionLong, .awaitReady] : List Instr) ∨
    (∃ p v, i = .setProperty p v) ∨ ∃ p, i = .getProperty p

/-- The requests that need an address and a mode. -/
def NeedsMode (i : Instr) : Prop :=
  (∃ f, i = .tune f) ∨ (∃ x y, i = .seekStart x y) ∨ (∃ x y, i = .getTuneStatus x y) ∨ ∃ y, i = .getRsqStatus y

/-- A request that needs a mode is presented with check 2 first and check 3 after it. -/
theorem exec_of_needsMode {i : Instr} (h : NeedsMode i) (s : State) :
    ∃ c, exec i s = .next (present i.word (needAddr s (needMode s c)) s) := by
  rcases h with ⟨f, rfl⟩ | ⟨x, y, rfl⟩ | ⟨x, y, rfl⟩ | ⟨y, rfl⟩ <;> exact ⟨_, rfl⟩

/-- A request that needs an address is presented with check 2 first. -/
theorem exec_of_needsAddr {i : Instr} (h : NeedsAddrOnly i ∨ NeedsMode i) (s : State) :
    ∃ c, exec i s = .next (present i.word (needAddr s c) s) := by
  rcases h with (h | ⟨p, v, rfl⟩ | ⟨p, rfl⟩) | h
  · simp only [List.mem_cons, List.not_mem_nil, or_false] at h
    rcases h with rfl | rfl | rfl | rfl | rfl | rfl | rfl <;> exact ⟨_, rfl⟩
  · exact ⟨_, rfl⟩
  · exact ⟨_, rfl⟩
  · obtain ⟨c, he⟩ := exec_of_needsMode h s
    exact ⟨_, he⟩

theorem exec_noAddress {i : Instr} (h : NeedsAddrOnly i ∨ NeedsMode i) {s : State} (hb : s.busy = false)
    (ha : s.addr = none) : exec i s = .next (rejectedWith i.word .noAddress s) := by
  obtain ⟨c, he⟩ := exec_of_needsAddr h s
  rw [he, needAddr_none ha, present_error hb]

theorem exec_noMode {i : Instr} (h : NeedsMode i) {s : State} {a : Addr} (hb : s.busy = false) (ha : s.addr = some a)
    (hm : s.mode = none) : exec i s = .next (rejectedWith i.word .noMode s) := by
  obtain ⟨c, he⟩ := exec_of_needsMode h s
  rw [he, needAddr_some ha, needMode_none hm, present_error hb]

/-- TUNE below or above the band of MODE is refused (R115). -/
theorem exec_tune_outside {s : State} {a : Addr} {m : Mode} {f : Half} (hb : s.busy = false) (ha : s.addr = some a)
    (hm : s.mode = some m) (hf : f < bandLo s.cfg m ∨ bandHi s.cfg m < f) :
    exec (.tune f) s = .next (rejectedWith (Instr.tune f).word .invalidArgument s) := by
  have h : bandLegal s.cfg m f = false := Bool.eq_false_iff.2 fun legal => by
    obtain ⟨hlo, hhi⟩ := (bandLegal_iff s.cfg m f).1 legal
    exact hf.elim (BitVec.not_lt.2 hlo) (BitVec.not_lt.2 hhi)
  exact execWith_tune_illegal Params.spec hb ha hm h

/-- The operands that CONFIG_WRITE refuses, the first index that names no register as the one after 0x0C. -/
theorem cfgRefused_iff (x : Byte) (v : Half) :
    CfgRefused x v ↔ 0x0C < x ∨ ((x = 0x00 ∨ x = 0x01) ∧ v = 0) ∨ (x = 0x07 ∧ 1 < v) := by
  have index : (0x0D : Byte) ≤ x ↔ 0x0C < x := by bv_omega
  rw [CfgRefused, index]

/-- CONFIG_WRITE is refused by its operands alone. -/
theorem exec_configWrite_refused {s : State} (hb : s.busy = false) {x : Byte} {v : Half} (h : CfgRefused x v) :
    exec (.configWrite x v) s = .next (rejectedWith (Instr.configWrite x v).word .invalidArgument s) := by
  rw [← present_error hb, ← configWriteChecked_of_refused h]
  rfl

/-- CONFIG_WRITE is accepted by its operands alone. -/
theorem exec_configWrite_legal {s : State} (hb : s.busy = false) {x : Byte} {v : Half} (h : ¬ CfgRefused x v) :
    ∃ q, exec (.configWrite x v) s = .next (acceptedWith (Instr.configWrite x v).word q s) := by
  obtain ⟨r, -, hc⟩ := configWriteChecked_of_legal h
  refine ⟨[.cfgWrite r v], ?_⟩
  rw [← present_ok hb, ← hc]
  rfl

/-- Settles O18: each check decides where those before it pass, and three requests have neither check 2 nor check 3. -/
theorem acceptanceChecksInOrder : Obligations.AcceptanceChecksInOrder := by
  intro s hb
  obtain ⟨-, illegal⟩ := illegalRequestWords
  refine ⟨fun w rest e hp hd => illegal s w rest e hb hp hd, fun ha i hi => ?_, fun ha hm i hi => ?_, fun ha => ?_,
    fun x v h => ?_, _, _, exec_resolveAddress hb, exec_noteChipReset hb, fun x v h => ?_⟩
  · have needs : NeedsAddrOnly i ∨ NeedsMode i := by
      simpa only [NeedsAddrOnly, NeedsMode, or_assoc] using hi
    exact exec_noAddress needs hb ha
  · obtain ⟨a, ha⟩ := Option.isSome_iff_exists.1 ha
    exact exec_noMode hi hb ha hm
  · obtain ⟨a, ha⟩ := Option.isSome_iff_exists.1 ha
    refine ⟨fun v hv => ?_, fun f hm => exec_tune_outside hb ha hm, fun f hm => exec_tune_outside hb ha hm⟩
    obtain ⟨refused, -⟩ := volumeRange s a v hb ha
    exact refused hv
  · exact exec_configWrite_refused hb ((cfgRefused_iff x v).2 h)
  · exact exec_configWrite_legal hb (mt (cfgRefused_iff x v).1 h)

/-! ## Failing (R210, R211, R214) -/

/-- The codes of R210 that say that a request failed. -/
abbrev ResultCode.IsFailure (c : ResultCode) : Prop := c ≠ .none ∧ c ≠ .ok ∧ c ≠ .chipError

/-- If BUSY = 0, the request has failed. -/
def EndsOnlyByFailure (t : State) : Prop := t.busy = false → t.resultCode.IsFailure

theorem endsOnlyByFailure_of_busy {t : State} (h : t.busy = true) : EndsOnlyByFailure t := by
  simp [EndsOnlyByFailure, h]

theorem endsOnlyByFailure_finish {c : ResultCode} (h : c.IsFailure) (s : State) : EndsOnlyByFailure (finish c s) :=
  fun _ => h

/-- The codes of a read that has not the bytes asked for. -/
theorem isFailure_of_read {c : ResultCode} (h : c = .busError ∨ c = .shortRead ∨ c = .longRead) : c.IsFailure := by
  rcases h with rfl | rfl | rfl <;> decide

section Failing

/-! Each operation of a busy CCODEC but the final `finish` lets the request go on, or ends it with the code of a
failure. -/

variable {s : State} (hb : s.busy = true)
include hb

theorem wr_endsOnlyByFailure (f : List Byte) : EndsOnlyByFailure (wr f s) := by
  rcases wr_cases f s with ⟨-, e⟩ | ⟨a, -, ⟨-, e⟩ | ⟨-, e⟩⟩ <;> rw [e]
  · exact endsOnlyByFailure_finish (by decide) _
  · exact endsOnlyByFailure_of_busy hb
  · exact endsOnlyByFailure_finish (by decide) _

theorem rd_endsOnlyByFailure (n : Nat) (k : Kind) : EndsOnlyByFailure (rd n k s) := by
  rcases rd_cases n k s with ⟨-, e⟩ | ⟨a, -, ⟨c, hc, -, e⟩ | ⟨r, -, -, e⟩⟩ <;> rw [e]
  · exact endsOnlyByFailure_finish (by decide) _
  · exact endsOnlyByFailure_finish (isFailure_of_read hc) _
  · exact endsOnlyByFailure_of_busy hb

theorem resolve_endsOnlyByFailure : EndsOnlyByFailure (resolve s) := by
  rcases resolve_cases s with ⟨-, e⟩ | ⟨-, ⟨c, hc, e⟩ | ⟨l, a, -, -, e⟩⟩ <;> rw [e]
  · exact endsOnlyByFailure_of_busy hb
  · exact endsOnlyByFailure_finish (by rcases hc with rfl | rfl <;> decide) _
  · exact endsOnlyByFailure_of_busy hb

theorem pollStep_endsOnlyByFailure : EndsOnlyByFailure (pollStep s) := by
  rcases pollStep_effects s with
    ⟨-, e⟩ | ⟨a, -, ⟨c, hc, -, e⟩ | ⟨b, -, -, e⟩ | ⟨b, -, -, -, e⟩ | ⟨b, -, -, -, e⟩ | ⟨-, -, e⟩ | ⟨-, -, e⟩⟩ <;> rw [e]
  · exact endsOnlyByFailure_finish (by decide) _
  · exact endsOnlyByFailure_finish (isFailure_of_read hc) _
  · exact endsOnlyByFailure_of_busy hb
  · exact endsOnlyByFailure_finish (by decide) _
  · exact endsOnlyByFailure_of_busy hb
  · exact endsOnlyByFailure_of_busy hb
  · exact endsOnlyByFailure_finish (by decide) _

theorem waitStep_endsOnlyByFailure : EndsOnlyByFailure (waitStep s) := by
  unfold waitStep
  cases s.wstate with
  | idle | sleep => exact endsOnlyByFailure_of_busy hb
  | poll => exact pollStep_endsOnlyByFailure hb

theorem startWait_endsOnlyByFailure (k : WKind) : EndsOnlyByFailure (startWait k s) :=
  pollStep_endsOnlyByFailure (s := { s with wkind := k, attempts := 0, wstate := .poll }) hb

theorem pre_endsOnlyByFailure : EndsOnlyByFailure (pre s) := by
  unfold pre
  cases s.ctsSeen with
  | true => exact endsOnlyByFailure_of_busy hb
  | false => exact startWait_endsOnlyByFailure hb .cts

theorem runMicro_endsOnlyByFailure (m : MicroOp) : EndsOnlyByFailure (runMicro m s) := by
  cases m with
  | pre => exact pre_endsOnlyByFailure hb
  | waitCts => exact startWait_endsOnlyByFailure hb .cts
  | waitStc => exact startWait_endsOnlyByFailure hb .stc
  | wr f => exact wr_endsOnlyByFailure hb f
  | rd n k => exact rd_endsOnlyByFailure hb n k
  | resolve => exact resolve_endsOnlyByFailure hb
  | invMode | settle | commit | cfgWrite | noteReset => exact endsOnlyByFailure_of_busy hb

/-- A step of a busy CCODEC is the final `finish` of a program that ran to its end, or ends the request only by a
failure (R213, R214). -/
theorem step_complete_or_endsOnlyByFailure {t : State} (h : step s = .next t) :
    (s.seq = [] ∧ s.wstate = .idle ∧ t = complete s) ∨ EndsOnlyByFailure t := by
  rcases step_cases h with ⟨idle, -⟩ | ⟨-, -, rfl⟩ | ⟨-, -, m, rest, -, rfl⟩ | ⟨-, hw, hs, rfl⟩
  · simp [hb] at idle
  · exact .inr (waitStep_endsOnlyByFailure hb)
  · exact .inr (runMicro_endsOnlyByFailure (s := { s with seq := rest }) hb m)
  · exact .inl ⟨hs, hw, rfl⟩

end Failing

/-- Settles O42: only the final `finish` sets OK or CHIP_ERROR; any other end is by a failure. -/
theorem abnormalCompletion : Obligations.AbnormalCompletion := by
  intro s t hb h ended
  have idle : IdleInv s := fun hn => by simp [hb] at hn
  obtain ⟨seq, wait⟩ := stepKeepsIdleInv s t idle h ended
  refine ⟨seq, wait, ?_⟩
  rcases step_complete_or_endsOnlyByFailure hb h with ⟨hs, hw, rfl⟩ | fails
  · refine ⟨?_, fun _ => ⟨hs, hw, rfl⟩⟩
    cases he : s.errSeen <;> simp [endCode, he]
  · obtain ⟨notNone, notOk, notChipError⟩ := fails ended
    exact ⟨notNone, fun code => (code.elim notOk notChipError).elim⟩

/-! ## The final `finish` (R196, R213) -/

/-- Settles O41: the final `finish` finds SEQ empty and no wait running, so it writes RESULT_CODE and BUSY alone. -/
theorem normalCompletion : Obligations.NormalCompletion := by
  intro s hb hw hs
  rw [step_done hb hw hs, complete, finish, endCode, ← hs, ← hw]

end Sys2Proof.Machine
